-- ==== Sys2Proof/Word.lean ====
section
/-! DEFINITION. The widths of the FBC's ports (spec/00_scope.md R15): bytes on the transport, 16-bit request words and
response data, and the 1024-byte image stream. -/

namespace Sys2Proof

/-- One byte on the transport, one FB byte, one opcode (R15). -/
abbrev Byte := BitVec 8

/-- A request word or the response data word (R15, R100, R103). -/
abbrev Word := BitVec 16

/-- The 1024-byte operand stream of DRAW_IMAGE (R100, R184), "read as bits only" (R185): byte `k` is bits `8k+7` to `8k`. -/
abbrev Image := BitVec 8192

/-- The bus identifier, opaque to the FBC (R34): DESIGN CHOICE, a natural number names it. -/
abbrev BusId := Nat

end Sys2Proof
end

