-- ==== Sys2Proof/Config.lean ====
section
/-! DEFINITION. What is fixed for one FBC: the register addresses, the configuration input, the model parameters
the spec leaves open (R14, R218, R248), and the one free value of the model (U8). -/

namespace Sys2Proof

/-- The command register address (R12). -/
abbrev Config.regCmd : Byte := 0x00#8

/-- The pixel-data register address (R12). -/
abbrev Config.regData : Byte := 0x40#8

/-- U8 of 93_implementation_defined.md: which waiting caller is served next is not fixed (R85, R104). A free value,
applied to a counter of State; nothing can be proved of it. -/
opaque Config.arbiter : Nat → Nat

/-- CFG_ORIENT (R31). -/
inductive Orient where
  | deg0 | deg90 | deg180 | deg270
  deriving DecidableEq, Repr

/-- CFG_AMODE (R32). -/
inductive AMode where
  | horizontal | page
  deriving DecidableEq, Repr

/-- P_PAGE_TX (R248). -/
inductive PageTx where
  | single | block
  deriving DecidableEq, Repr

/-- The model parameters of R14 and R218. P_SEGREMAP and P_COMSCAN have two legal values each, so each is its one bit:
`r` of `1010000r` (R123) and `d` of `1100d000` (R124). -/
structure Params where
  clkDiv     : Byte
  chargePump : Byte
  segRemap   : BitVec 1
  comScan    : BitVec 1
  comPins    : Byte
  contrast   : Byte
  precharge  : Byte
  vcomh      : Byte
  pageTx     : PageTx
  deriving DecidableEq, Repr

/-- The recommended defaults of R218 and R248 (log 6). -/
def Params.recommended : Params :=
  { clkDiv := 0x80#8, chargePump := 0x14#8, segRemap := 1#1, comScan := 1#1, comPins := 0x12#8, contrast := 0xCF#8,
    precharge := 0xF1#8, vcomh := 0x40#8, pageTx := .single }

/-- The configuration input presented at reset (R4, R13, R342); a value not presented takes its default. The bus
identifier has no default in the spec: DESIGN CHOICE 0 (log 4). -/
structure ConfigInput where
  bus    : BusId := 0
  addr   : Byte := 0x3C#8
  orient : Orient := .deg0
  amode  : AMode := .horizontal
  deriving DecidableEq, Repr

end Sys2Proof
end

