-- ==== Sys2Proof/Syntax.lean ====
section
/-! DEFINITION. The instructions: one constructor per row of spec/opcode_table.json, and the words they are spelt in. -/

namespace Sys2Proof

/-- The host operations (R105), the pseudo-operations (R109), the bus commands (R116 to R136) and the data byte (R112). -/
inductive Instr where
  -- host operations, R105
  | clear
  | setPixel (x y : Word) (on : Bool)
  | clearRect (x y w h : Word) (on : Bool)
  | drawImage (img : Image) (x y : Word)
  | update
  | shutdown
  | getWidth
  | getHeight
  -- pseudo-operations, R109
  | pset (x y : Word)
  | pclr (x y : Word)
  | fillRect (x y w h : Word)
  | eraseRect (x y w h : Word)
  -- bus commands, R116 to R136
  | displayOff
  | setClockDiv (arg : Byte)
  | setMultiplex (arg : Byte)
  | setDisplayOffset (arg : Byte)
  | setStartLine (l : BitVec 6)
  | chargePump (arg : Byte)
  | setMemoryMode (arg : Byte)
  | segmentRemap (r : BitVec 1)
  | comScanDir (d : BitVec 1)
  | setComPins (arg : Byte)
  | setContrast (arg : Byte)
  | setPrecharge (arg : Byte)
  | setVcomh (arg : Byte)
  | displayResume
  | normalDisplay
  | displayOn
  | setColumnRange (first last : Byte)
  | setPageRange (first last : Byte)
  | setPageStart (p : BitVec 3)
  | setColLow (c : BitVec 4)
  | setColHigh (c : BitVec 4)
  -- a pixel-data byte, R112
  | data (d : Byte)
  deriving DecidableEq, Repr

/-- A request as it stands on the host request port (R100): the control halfword, the operand words, the image stream. -/
structure Request where
  req : Word
  x   : Word := 0#16
  y   : Word := 0#16
  w   : Word := 0#16
  h   : Word := 0#16
  img : Image := 0#8192
  deriving DecidableEq, Repr

/-- The words of one instruction, by the channel they travel on: a host request (R100), the bytes of a bus command on
register 0x00 (R110), a byte on register 0x40 (R112). -/
inductive Words where
  | request (r : Request)
  | command (bytes : List Byte)
  | data (d : Byte)
  deriving DecidableEq, Repr

/-- A bus command or a data byte: what the FBC's own sequences are made of (R110, R112). -/
def Instr.isBus : Instr → Bool
  | .clear | .setPixel .. | .clearRect .. | .drawImage .. | .update | .shutdown | .getWidth | .getHeight => false
  | .pset .. | .pclr .. | .fillRect .. | .eraseRect .. => false
  | .displayOff | .setClockDiv _ | .setMultiplex _ | .setDisplayOffset _ | .setStartLine _ | .chargePump _ => true
  | .setMemoryMode _ | .segmentRemap _ | .comScanDir _ | .setComPins _ | .setContrast _ | .setPrecharge _ => true
  | .setVcomh _ | .displayResume | .normalDisplay | .displayOn | .setColumnRange .. | .setPageRange .. => true
  | .setPageStart _ | .setColLow _ | .setColHigh _ | .data _ => true

end Sys2Proof
end

