-- ==== Sys2Proof/WellFormed.lean ====
section
/-! DEFINITION. The well-formed instructions: every host operation (any operand is legal, R102, R307), and each bus command with an
argument value the spec gives for it (R113 and R116 to R136; FBC-BUS v1 has no other, R114). -/

namespace Sys2Proof

/-- R113, R118 to R122, R132, R133, R135, R136: the fixed argument values of FBC-BUS v1. The arguments of R117, R121
and R123 to R128 are model parameters and may be any byte; the page of R134 is any of the eight. -/
def Instr.wf : Instr → Bool
  | .clear | .setPixel .. | .clearRect .. | .drawImage .. | .update | .shutdown | .getWidth | .getHeight => true
  | .pset .. | .pclr .. | .fillRect .. | .eraseRect .. => true
  | .displayOff | .setClockDiv _ | .chargePump _ | .segmentRemap _ | .comScanDir _ | .setComPins _ => true
  | .setContrast _ | .setPrecharge _ | .setVcomh _ | .displayResume | .normalDisplay | .displayOn => true
  | .setMultiplex arg => decide (arg = 0x3F#8)
  | .setDisplayOffset arg => decide (arg = 0x00#8)
  | .setStartLine l => decide (l = 0#6)
  | .setMemoryMode arg => decide (arg = 0x00#8 ∨ arg = 0x02#8)
  | .setColumnRange first last => decide (first = 0x00#8 ∧ last = 0x7F#8)
  | .setPageRange first last => decide (first = 0x00#8 ∧ last = 0x07#8)
  | .setPageStart _ => true
  | .setColLow c => decide (c = 0#4)
  | .setColHigh c => decide (c = 0#4)
  | .data _ => true

end Sys2Proof
end

