-- ==== Sys2Proof/Decode.lean ====
section
/-! DEFINITION. Decoding (total, rejecting by name) and encoding of host requests (30_encoding.md R100 to R109) and bus
commands (R110 to R136), the listing syntax (R108), and the reader of a table word. -/

namespace Sys2Proof

/-- Why words spell no instruction. -/
inductive DecodeError where
  /-- OP is 0x00 or 0x09 to 0xFF (R106). -/
  | reservedOpcode (op : Byte)
  /-- RSV is nonzero (R101, R106). -/
  | reservedBits (rsv : BitVec 7)
  /-- A byte in opcode position that is no command of FBC-BUS v1 (R114). -/
  | noCommand (b : Byte)
  /-- The command's argument bytes are missing (R110). -/
  | missingArgument
  /-- There is no byte to read. -/
  | noBytes
  /-- Bytes stand after the one command. -/
  | extraBytes
  deriving DecidableEq, Repr

/-- What a decoder answers. -/
inductive Decoded (α : Type) where
  | ok (a : α)
  | error (e : DecodeError)
  deriving DecidableEq, Repr

/-! ## Host requests -/

/-- `REQ[7:0]` (R101). -/
def reqOp (r : Request) : Byte := r.req.extractLsb' 0 8

/-- `REQ[8]` (R101). -/
def reqOn (r : Request) : Bool := r.req.getLsbD 8

/-- `REQ[15:9]` (R101). -/
def reqRsv (r : Request) : BitVec 7 := r.req.extractLsb' 9 7

/-- The opcode map (R105), the reserved encodings (R106); unused operands are ignored (R102). -/
def decodeRequest (r : Request) : Decoded Instr :=
  if reqRsv r ≠ 0#7 then .error (.reservedBits (reqRsv r))
  else if reqOp r = 0x01#8 then .ok .clear
  else if reqOp r = 0x02#8 then .ok (.setPixel r.x r.y (reqOn r))
  else if reqOp r = 0x03#8 then .ok (.clearRect r.x r.y r.w r.h (reqOn r))
  else if reqOp r = 0x04#8 then .ok (.drawImage r.img r.x r.y)
  else if reqOp r = 0x05#8 then .ok .update
  else if reqOp r = 0x06#8 then .ok .shutdown
  else if reqOp r = 0x07#8 then .ok .getWidth
  else if reqOp r = 0x08#8 then .ok .getHeight
  else .error (.reservedOpcode (reqOp r))

/-! ## Bus commands -/

/-- Shape (b) of R110: an opcode and one argument byte. -/
def decodeArg1 (f : Byte → Instr) : List Byte → Decoded (Instr × List Byte)
  | a :: rest => .ok (f a, rest)
  | [] => .error .missingArgument

/-- Shape (c) of R110: an opcode and two argument bytes, start then end. -/
def decodeArg2 (f : Byte → Byte → Instr) : List Byte → Decoded (Instr × List Byte)
  | a :: b :: rest => .ok (f a b, rest)
  | _ => .error .missingArgument

/-- The command whose opcode byte is `b`, with its arguments from the bytes after it (R116 to R136, decoded by position,
R111). -/
def decodeOpcode (b : Byte) (rest : List Byte) : Decoded (Instr × List Byte) :=
  if b = 0xAE#8 then .ok (.displayOff, rest)
  else if b = 0xD5#8 then decodeArg1 .setClockDiv rest
  else if b = 0xA8#8 then decodeArg1 .setMultiplex rest
  else if b = 0xD3#8 then decodeArg1 .setDisplayOffset rest
  else if b.extractLsb' 6 2 = 0b01#2 then .ok (.setStartLine (b.extractLsb' 0 6), rest)
  else if b = 0x8D#8 then decodeArg1 .chargePump rest
  else if b = 0x20#8 then decodeArg1 .setMemoryMode rest
  else if b.extractLsb' 1 7 = 0b1010000#7 then .ok (.segmentRemap (b.extractLsb' 0 1), rest)
  else if b.extractLsb' 4 4 = 0b1100#4 ∧ b.extractLsb' 0 3 = 0#3 then .ok (.comScanDir (b.extractLsb' 3 1), rest)
  else if b = 0xDA#8 then decodeArg1 .setComPins rest
  else if b = 0x81#8 then decodeArg1 .setContrast rest
  else if b = 0xD9#8 then decodeArg1 .setPrecharge rest
  else if b = 0xDB#8 then decodeArg1 .setVcomh rest
  else if b = 0xA4#8 then .ok (.displayResume, rest)
  else if b = 0xA6#8 then .ok (.normalDisplay, rest)
  else if b = 0xAF#8 then .ok (.displayOn, rest)
  else if b = 0x21#8 then decodeArg2 .setColumnRange rest
  else if b = 0x22#8 then decodeArg2 .setPageRange rest
  else if b.extractLsb' 3 5 = 0b10110#5 then .ok (.setPageStart (b.extractLsb' 0 3), rest)
  else if b.extractLsb' 4 4 = 0b0000#4 then .ok (.setColLow (b.extractLsb' 0 4), rest)
  else if b.extractLsb' 4 4 = 0b0001#4 then .ok (.setColHigh (b.extractLsb' 0 4), rest)
  else .error (.noCommand b)

/-- The first command of the bytes written to register 0x00, and the bytes after it. -/
def decodeCommand : List Byte → Decoded (Instr × List Byte)
  | [] => .error .noBytes
  | b :: rest => decodeOpcode b rest

/-- R111: the commands of a trace's command bytes, decoded by position; `fuel` bounds how many are read. -/
def decodeCommands : Nat → List Byte → Decoded (List Instr)
  | _, [] => .ok []
  | 0, _ :: _ => .error .extraBytes
  | fuel + 1, b :: rest =>
    match decodeOpcode b rest with
    | .error e => .error e
    | .ok (i, rest') =>
      match decodeCommands fuel rest' with
      | .error e => .error e
      | .ok is => .ok (i :: is)

/-- The instruction that words spell, by channel: a request, exactly one bus command, a data byte. -/
def decode : Words → Decoded Instr
  | .request r => decodeRequest r
  | .command bytes =>
    match decodeCommand bytes with
    | .ok (i, []) => .ok i
    | .ok (_, _ :: _) => .error .extraBytes
    | .error e => .error e
  | .data d => .ok (.data d)

/-! ## Encoding -/

/-- `REQ = {7'b0, ON, OP}` (R101). -/
def reqWord (op : Byte) (on : Bool) : Word := 0#7 ++ (BitVec.ofBool on ++ op)

/-- The words of an instruction (R105, R109, R110, R112). Ignored fields are zero. -/
def encode : Instr → Words
  | .clear => .request { req := reqWord 0x01#8 false }
  | .setPixel x y on => .request { req := reqWord 0x02#8 on, x := x, y := y }
  | .clearRect x y w h on => .request { req := reqWord 0x03#8 on, x := x, y := y, w := w, h := h }
  | .drawImage img x y => .request { req := reqWord 0x04#8 false, x := x, y := y, img := img }
  | .update => .request { req := reqWord 0x05#8 false }
  | .shutdown => .request { req := reqWord 0x06#8 false }
  | .getWidth => .request { req := reqWord 0x07#8 false }
  | .getHeight => .request { req := reqWord 0x08#8 false }
  | .pset x y => .request { req := reqWord 0x02#8 true, x := x, y := y }
  | .pclr x y => .request { req := reqWord 0x02#8 false, x := x, y := y }
  | .fillRect x y w h => .request { req := reqWord 0x03#8 true, x := x, y := y, w := w, h := h }
  | .eraseRect x y w h => .request { req := reqWord 0x03#8 false, x := x, y := y, w := w, h := h }
  | .displayOff => .command [0xAE#8]
  | .setClockDiv arg => .command [0xD5#8, arg]
  | .setMultiplex arg => .command [0xA8#8, arg]
  | .setDisplayOffset arg => .command [0xD3#8, arg]
  | .setStartLine l => .command [0b01#2 ++ l]
  | .chargePump arg => .command [0x8D#8, arg]
  | .setMemoryMode arg => .command [0x20#8, arg]
  | .segmentRemap r => .command [0b1010000#7 ++ r]
  | .comScanDir d => .command [0b1100#4 ++ (d ++ 0#3)]
  | .setComPins arg => .command [0xDA#8, arg]
  | .setContrast arg => .command [0x81#8, arg]
  | .setPrecharge arg => .command [0xD9#8, arg]
  | .setVcomh arg => .command [0xDB#8, arg]
  | .displayResume => .command [0xA4#8]
  | .normalDisplay => .command [0xA6#8]
  | .displayOn => .command [0xAF#8]
  | .setColumnRange first last => .command [0x21#8, first, last]
  | .setPageRange first last => .command [0x22#8, first, last]
  | .setPageStart p => .command [0b10110#5 ++ p]
  | .setColLow c => .command [0b0000#4 ++ c]
  | .setColHigh c => .command [0b0001#4 ++ c]
  | .data d => .data d

/-- The request a pseudo-operation expands to (R109); every other instruction is its own. -/
def Instr.core : Instr → Instr
  | .pset x y => .setPixel x y true
  | .pclr x y => .setPixel x y false
  | .fillRect x y w h => .clearRect x y w h true
  | .eraseRect x y w h => .clearRect x y w h false
  | i => i

/-! ## Listing syntax (R108, R109) -/

/-- The tokens of a listing line: spaces and commas separate, a semicolon begins the comment. `cur` is the token being
read, last character first. -/
def listingTokens : List Char → List Char → List (List Char)
  | cur, [] => if cur.isEmpty then [] else [cur.reverse]
  | cur, c :: cs =>
    if c = ';' then (if cur.isEmpty then [] else [cur.reverse])
    else if c = ' ' ∨ c = ',' then (if cur.isEmpty then listingTokens [] cs else cur.reverse :: listingTokens [] cs)
    else listingTokens (c :: cur) cs

/-- One digit below `base`. -/
def digitValue (base : Nat) (c : Char) : Option Nat :=
  let n := c.toNat
  let v := if 48 ≤ n ∧ n ≤ 57 then n - 48 else if 65 ≤ n ∧ n ≤ 70 then n - 55 else if 97 ≤ n ∧ n ≤ 102 then n - 87 else base
  if v < base then some v else none

/-- Digits of a number in a base, most significant first, onto `acc`. -/
def digitsValue (base : Nat) : Nat → List Char → Option Nat
  | acc, [] => some acc
  | acc, c :: cs =>
    match digitValue base c with
    | none => none
    | some d => digitsValue base (acc * base + d) cs

/-- An unsigned number: decimal unless prefixed `0x` (R108). -/
def listingNat : List Char → Option Nat
  | [] => none
  | '0' :: 'x' :: d :: ds => digitsValue 16 0 (d :: ds)
  | d :: ds => digitsValue 10 0 (d :: ds)

/-- A 16-bit operand: a number, with a minus sign for a negative one, that 16 bits hold. -/
def listingWord : List Char → Option Word
  | '-' :: ds =>
    match listingNat ds with
    | none => none
    | some n => if n ≤ 32768 then some (BitVec.ofInt 16 (-(n : Int))) else none
  | ds =>
    match listingNat ds with
    | none => none
    | some n => if n < 65536 then some (BitVec.ofNat 16 n) else none

/-- `on` is `0` or `1` (R108). -/
def listingOn : List Char → Option Bool
  | ['0'] => some false
  | ['1'] => some true
  | _ => none

/-- One line of a listing (R108, R109); `imgs` gives the bitmaps named beside it. -/
def assemble (imgs : List (List Char × Image)) (line : List Char) : Option Instr :=
  match listingTokens [] line with
  | [m] =>
    if m = "CLEAR".toList then some .clear
    else if m = "UPDATE".toList then some .update
    else if m = "SHUTDOWN".toList then some .shutdown
    else if m = "GET_WIDTH".toList then some .getWidth
    else if m = "GET_HEIGHT".toList then some .getHeight
    else none
  | [m, a, b] =>
    match listingWord a, listingWord b with
    | some x, some y =>
      if m = "PSET".toList then some (.pset x y) else if m = "PCLR".toList then some (.pclr x y) else none
    | _, _ => none
  | [m, a, b, c] =>
    if m = "SET_PIXEL".toList then
      match listingWord a, listingWord b, listingOn c with
      | some x, some y, some on => some (.setPixel x y on)
      | _, _, _ => none
    else if m = "DRAW_IMAGE".toList then
      match imgs.lookup a, listingWord b, listingWord c with
      | some img, some x, some y => some (.drawImage img x y)
      | _, _, _ => none
    else none
  | [m, a, b, c, d] =>
    match listingWord a, listingWord b, listingWord c, listingWord d with
    | some x, some y, some w, some h =>
      if m = "FILL_RECT".toList then some (.fillRect x y w h)
      else if m = "ERASE_RECT".toList then some (.eraseRect x y w h)
      else none
    | _, _, _, _ => none
  | [m, a, b, c, d, e] =>
    match listingWord a, listingWord b, listingWord c, listingWord d, listingOn e with
    | some x, some y, some w, some h, some on =>
      if m = "CLEAR_RECT".toList then some (.clearRect x y w h on) else none
    | _, _, _, _, _ => none
  | _ => none

/-! ## The opcode table's words -/

/-- R100's listing word `{H, W, Y, X, REQ}` with IMG above it, read as fields. -/
def requestOfWord (w : Nat) : Request :=
  { req := BitVec.ofNat 16 w, x := BitVec.ofNat 16 (w >>> 16), y := BitVec.ofNat 16 (w >>> 32),
    w := BitVec.ofNat 16 (w >>> 48), h := BitVec.ofNat 16 (w >>> 64), img := BitVec.ofNat 8192 (w >>> 80) }

/-- The three bytes of the longest bus command (R110), the first byte the opcode. -/
def commandBytesOfWord (w : Nat) : List Byte :=
  [BitVec.ofNat 8 w, BitVec.ofNat 8 (w >>> 8), BitVec.ofNat 8 (w >>> 16)]

/-- The words an opcode-table row spells: rows of 8 bits are bus bytes, rows of 16 bits or more are requests. The table
does not say which register an 8-bit row is written to, so a byte that is a command's opcode is read on register 0x00
and any other byte on register 0x40, where it is DATA (log 15). -/
def wordsOfTableWord (nbits w : Nat) : Option Words :=
  let v := w % 2 ^ nbits
  if nbits = 8 then
    match decodeCommand (commandBytesOfWord v) with
    | .ok (_, rest) => some (.command ((commandBytesOfWord v).take (3 - rest.length)))
    | .error _ => some (.data (BitVec.ofNat 8 v))
  else if 16 ≤ nbits then some (.request (requestOfWord v))
  else none

/-- The instruction the decoder reads from an instruction whose bits are `w`, numbered as the opcode table numbers
them. -/
def decodeTableWord (nbits w : Nat) : Option Instr :=
  match wordsOfTableWord nbits w with
  | none => none
  | some ws =>
    match decode ws with
    | .ok i => some i
    | .error _ => none

end Sys2Proof
end

