-- ==== Sys2Proof/Machine/State.lean ====
section
/-! DEFINITION. The state of the FBC (10_state.md) as plain data, why a step can stop, and the state at reset (R52). -/

namespace Sys2Proof.Machine

/-- Memory: the (index, byte) pairs that differ from what an unlisted index reads as, indices rising. -/
abbrev Memory := List Host.Cell

/-- CSTATE, the controller state (R40). -/
inductive CState where
  | uninitialized | initializing | ready | shuttingDown | closed | configFailed
  deriving DecidableEq, Repr

/-- RESP_CODE (R47, R103); code 3 is never produced. -/
inductive RespCode where
  | ok | ioError | configFailure
  deriving DecidableEq, Repr

/-- The usage faults (R305). -/
inductive UsageFault where
  | notReady | illegalOp
  deriving DecidableEq, Repr

/-- What the transport answers to a transaction or an acquisition (R73, R212). -/
inductive Answer where
  | success | failure
  deriving DecidableEq, Repr

/-- A transaction on the transport (R73). -/
inductive Transaction where
  | writeRegister (addr value : Byte)
  | writeBlock (addr : Byte) (bytes : List Byte)
  deriving DecidableEq, Repr

/-- An event of the transport trace (R75); the answer is `none` while the transport has not answered. -/
inductive Event where
  | acquire (bus : BusId) (addr : Byte) (answer : Option Answer)
  | transaction (t : Transaction) (answer : Option Answer)
  | release
  deriving DecidableEq, Repr

/-- What a sequence still has to issue: a bus command or data byte, or a block of data bytes (R20, R214, R242, R243,
R247). -/
inductive SeqItem where
  | bus (i : Instr)
  | block (bytes : List Byte)
  deriving DecidableEq, Repr

/-- A request waiting on the host request port, with the caller that presented it (R5, R104). -/
structure Waiting where
  caller  : Nat
  request : Request
  deriving DecidableEq, Repr

/-- A response delivered (R301); `dest` is the caller, or `none` for the agent that applied reset. -/
structure Response where
  dest : Option Nat
  code : RespCode
  data : Word
  deriving DecidableEq, Repr

/-- The FBC. The first four groups are the state 10_state.md lists; then what the spec implies of a sequence in progress
and of the ports; last the model's own fields (INVENTORY.md, State). -/
structure State where
  -- configuration registers, R31 to R34
  cfgBus    : BusId
  cfgAddr   : Byte
  cfgOrient : Orient
  cfgAmode  : AMode
  -- the framebuffer, R36
  fb        : Memory
  -- controller state and status, R40 to R47
  cstate    : CState
  txh       : Bool
  log       : BitVec 17
  fault     : BitVec 2
  seqK      : Nat
  busy      : Bool
  respCode  : RespCode
  respData  : Word
  -- operand latches, R48
  op        : Byte
  on        : Bool
  x         : Word
  y         : Word
  w         : Word
  h         : Word
  img       : Image
  -- the running sequence: what it has still to issue (R22), and whether a transaction is unanswered (R75, R309)
  seq       : List SeqItem
  waiting   : Bool
  -- the ports: requests waiting (R104), the current requester and the responses (R301), the transport trace (R75)
  port      : List Waiting
  requester : Option Nat
  responses : List Response
  trace     : List Event
  -- the model's own: the parameters (R14), the transport's answers to come (U5), the arbiter's counter (U8)
  params    : Params
  answers   : List Answer
  arbK      : Nat
  deriving DecidableEq, Repr

/-- Why the machine stops. -/
inductive Fault where
  /-- Raised by `step` when a transaction or the acquisition was issued and the transport never answers it: "A model gives
  the FBC no step in this state" (R309). Safe: the spec gives no step. -/
  | transportNeverAnswers
  /-- Raised by `step` when BUSY is 1 in Closed or ConfigFailed: no operation runs there (R210, R271), so no rule moves
  the FBC. Safe: no run reaches it. -/
  | busyWithoutOperation
  /-- Raised by a bus command, data byte or block when no sequence of the FBC is running or no transport is held: "A
  transaction is issued only while TXH = 1" (R42), and only by a sequence (R71, R111). Safe: no run reaches it. -/
  | transactionOutsideSequence
  deriving DecidableEq, Repr

/-- Why an instruction has no meaning. -/
inductive Refusal where
  /-- Raised by `exec` for an instruction the model gives no meaning yet. Safe. -/
  | notModelled (mnemonic : String)
  deriving DecidableEq, Repr

/-- R52, R211: the state at the moment reset is applied with a configuration input, before construction runs. The
response registers and operand latches are unspecified there: DESIGN CHOICE zero (log 5). -/
def State.resetWith (c : ConfigInput) : State :=
  { cfgBus := c.bus, cfgAddr := c.addr, cfgOrient := c.orient, cfgAmode := c.amode,
    fb := [],
    cstate := .uninitialized, txh := false, log := 0#17, fault := 0#2, seqK := 0, busy := true,
    respCode := .ok, respData := 0#16,
    op := 0#8, on := false, x := 0#16, y := 0#16, w := 0#16, h := 0#16, img := 0#8192,
    seq := [], waiting := false,
    port := [], requester := none, responses := [], trace := [],
    params := Params.recommended, answers := [], arbK := 0 }

/-- Reset with the default configuration (R342). -/
def State.reset : State := State.resetWith {}

end Sys2Proof.Machine
end

