-- ==== Sys2Proof/Machine/Memory.lean ====
section
/-! DEFINITION. The framebuffer memory (10_state.md R36, 20_memory.md R82, R84): one byte read and written at a time. -/

namespace Sys2Proof.Machine

/-- What an index that is not listed reads as: FB is all 0x00 at reset (R52). -/
def Memory.unlisted : Byte := 0x00#8

/-- `MemRead(i, 1)` (R19). -/
def Memory.read : Memory → Nat → Byte
  | [], _ => Memory.unlisted
  | (b, v) :: rest, a => if a = b then v else Memory.read rest a

/-- The memory without an entry for an index. -/
def Memory.remove : Memory → Nat → Memory
  | [], _ => []
  | (b, u) :: rest, a =>
    if a < b then (b, u) :: rest else if a = b then rest else (b, u) :: Memory.remove rest a

/-- The memory with an entry for an index, in rising order. -/
def Memory.put : Memory → Nat → Byte → Memory
  | [], a, v => [(a, v)]
  | (b, u) :: rest, a, v =>
    if a < b then (a, v) :: (b, u) :: rest else if a = b then (a, v) :: rest else (b, u) :: Memory.put rest a v

/-- `MemWrite(i, 1, v)` (R19), in canonical form. -/
def Memory.write (m : Memory) (a : Nat) (v : Byte) : Memory := if v = Memory.unlisted then m.remove a else m.put a v

/-- The canonical form: indices strictly rising, no entry equal to what an unlisted index reads as. -/
abbrev Memory.wf (m : Memory) : Prop :=
  m.Pairwise (fun c d => c.1 < d.1) ∧ ∀ c ∈ m, c.2 ≠ Memory.unlisted

/-- A framebuffer: canonical, with indices 0 to 1023 (R36). -/
abbrev Memory.fbWf (m : Memory) : Prop := m.wf ∧ ∀ c ∈ m, c.1 < 1024

/-- `FB[a .. a + n)` (R22): the `n` bytes from index `a`, lowest index first. -/
def Memory.bytes (m : Memory) (a n : Nat) : List Byte := (List.range n).map (fun j => m.read (a + j))

/-- The byte whose bit `b` is `f b`, `b` from 0 to 7. -/
def byteOfBits (f : Nat → Bool) : Byte := BitVec.ofBoolListLE [f 0, f 1, f 2, f 3, f 4, f 5, f 6, f 7]

/-- The framebuffer whose byte at index `k` is `f k`, in canonical form. -/
def Memory.ofBytes (f : Nat → Byte) : Memory :=
  (List.range 1024).filterMap fun k => if f k = Memory.unlisted then none else some (k, f k)

/-- Every FB byte 0x00 (R143, R272). -/
def Memory.cleared : Memory := []

end Sys2Proof.Machine
end

