-- ==== Sys2Proof/Machine/Flags.lean ====
section
/-! DEFINITION. The status bits and codes: FAULT (R44, R305), LOG (R43, R274), CSTATE and RESP_CODE (R40, R47), and which
operation is legal in which controller state (R306). The FBC has no condition flags (R30). -/

namespace Sys2Proof.Machine

/-- FAULT with the bit of a usage fault set: bit 0 for NOT_READY, bit 1 for ILLEGAL_OP (R44, R305). -/
def faultWith (f : UsageFault) (v : BitVec 2) : BitVec 2 :=
  match f with
  | .notReady => v ||| 0b01#2
  | .illegalOp => v ||| 0b10#2

/-- `LOG <- {zext_16(k), 1}` (R43, R271, R274). -/
def logOf (k : Nat) : BitVec 17 := BitVec.ofNat 16 k ++ 1#1

/-- LOG.SDERR (R43). -/
def logSderr (v : BitVec 17) : Bool := v.getLsbD 0

/-- LOG.SDERR_K (R43). -/
def logSderrK (v : BitVec 17) : BitVec 16 := v.extractLsb' 1 16

/-- The code of CSTATE (R40); 6 and 7 are never produced. -/
def cstateCode : CState → BitVec 3
  | .uninitialized => 0#3
  | .initializing => 1#3
  | .ready => 2#3
  | .shuttingDown => 3#3
  | .closed => 4#3
  | .configFailed => 5#3

/-- The code of RESP_CODE (R47); 3 is never produced. -/
def respCodeBits : RespCode → BitVec 2
  | .ok => 0#2
  | .ioError => 1#2
  | .configFailure => 2#2

/-- `Legal(OP, CSTATE)` (R306). No request is accepted in the three busy states, so none is legal there (log 13). -/
def legal (op : Byte) (c : CState) : Bool :=
  match c with
  | .ready => true
  | .closed | .configFailed => decide (op = 0x06#8 ∨ op = 0x07#8 ∨ op = 0x08#8)
  | .uninitialized | .initializing | .shuttingDown => false

end Sys2Proof.Machine
end

