-- ==== Sys2Proof/Machine/Operands.lean ====
section
/-! DEFINITION. Operand forms: two's-complement operands (R17, R102), the logical dimensions (R49), the rotation transform
(R161, R168), the pixels of a bitmap (R184), the codes of the configuration registers (R31, R32). -/

namespace Sys2Proof.Machine

/-- `sext_16(v)` (R17, R102). -/
def sext16 (v : Word) : Int := v.toInt

/-- The code of CFG_ORIENT (R31). -/
def orientCode : Orient → BitVec 2
  | .deg0 => 0#2
  | .deg90 => 1#2
  | .deg180 => 2#2
  | .deg270 => 3#2

/-- The code of CFG_AMODE (R32). -/
def amodeCode : AMode → BitVec 1
  | .horizontal => 0#1
  | .page => 1#1

/-- LW (R49). -/
def logicalWidth : Orient → Nat
  | .deg0 | .deg180 => 128
  | .deg90 | .deg270 => 64

/-- LH (R49). -/
def logicalHeight : Orient → Nat
  | .deg0 | .deg180 => 64
  | .deg90 | .deg270 => 128

/-- `Rot(o, x, y)` (R161), over ℤ. -/
def rot (o : Orient) (x y : Int) : Int × Int :=
  match o with
  | .deg0 => (x, y)
  | .deg90 => (y, logicalWidth o - x - 1)
  | .deg180 => (logicalWidth o - x - 1, logicalHeight o - y - 1)
  | .deg270 => (logicalHeight o - y - 1, x)

/-- The logical pixel shown at a physical one (R168). -/
def unrot (o : Orient) (px py : Int) : Int × Int :=
  match o with
  | .deg0 => (px, py)
  | .deg90 => (63 - py, px)
  | .deg180 => (127 - px, 63 - py)
  | .deg270 => (py, 127 - px)

/-- The logical panel `0 ≤ x < LW`, `0 ≤ y < LH` (R70). -/
abbrev inLogical (o : Orient) (x y : Int) : Prop := 0 ≤ x ∧ x < logicalWidth o ∧ 0 ≤ y ∧ y < logicalHeight o

/-- The native panel `0 ≤ px < 128`, `0 ≤ py < 64` (R70). -/
abbrev inPhysical (px py : Int) : Prop := 0 ≤ px ∧ px < 128 ∧ 0 ≤ py ∧ py < 64

/-- `IMG[k]` (R184). -/
def imgByte (img : Image) (k : Nat) : Byte := img.extractLsb' (8 * k) 8

/-- Bit `i` of a bitmap, most-significant bit of each byte first: `(IMG[i div 8] >> (7 - (i mod 8))) & 1` (R79, R184,
R186). -/
def imgBit (img : Image) (i : Nat) : Bool := (imgByte img (i / 8)).getLsbD (7 - i % 8)

/-- The bitmap as a byte list spells it, lowest index first; missing bytes are 0x00. -/
def imgOfBytes : List Byte → Image
  | [] => 0#8192
  | b :: bs => (imgOfBytes bs <<< 8) ||| b.setWidth 8192

end Sys2Proof.Machine
end

