-- ==== Sys2Proof/Machine/Ops.lean ====
section
/-! DEFINITION. The shared operations: responses (R301), usage faults (R305), the pixel unit (R141), transactions (R20) and
what a failed one does (R303), acceptance of a request (R104). -/

namespace Sys2Proof.Machine

/-- A meaning's answer. -/
abbrev Result := Host.Outcome State Fault Refusal

/-! ## Responses and usage faults -/

/-- `respond(code, data)` (R301): the response registers, and the delivery to the requester. -/
def State.respond (code : RespCode) (data : Word) (s : State) : State :=
  { s with respCode := code, respData := data, responses := s.responses ++ [⟨s.requester, code, data⟩] }

/-- `respond(code, data)` and then `S.BUSY <- 0`: the end of an operation (R107) or of construction (R212, R215, R216). -/
def State.complete (code : RespCode) (data : Word) (s : State) : State :=
  { s.respond code data with busy := false }

/-- `fault F` (R305): the one way a request the spec gives no meaning is taken. The fault bit is set, no response is
given, BUSY is cleared, nothing else changes. -/
def State.recordFault (f : UsageFault) (s : State) : State :=
  { s with fault := faultWith f s.fault, busy := false }

/-- R107: the rule of an accepted operation runs if the operation is legal in this controller state (R306), and
otherwise NOT_READY is recorded. -/
def whenLegal (op : Byte) (s : State) (rule : State → State) : Result :=
  .next (if legal op s.cstate then rule s else s.recordFault .notReady)

/-! ## The pixel unit -/

/-- The FB index of a physical pixel (R37). -/
def pixelPos (px py : Int) : Nat := px.toNat + py.toNat / 8 * 128

/-- The mask of a physical pixel in its byte (R37, R141). -/
def pixelMask (py : Int) : Byte := 1#8 <<< (py.toNat % 8)

/-- `PixelWrite(px, py, on)` (R141): outside the native panel nothing changes (R142). -/
def pixelWrite (px py : Int) (on : Bool) (fb : Memory) : Memory :=
  if inPhysical px py then
    let old := fb.read (pixelPos px py)
    fb.write (pixelPos px py) (if on then old ||| pixelMask py else old &&& ~~~(pixelMask py))
  else fb

/-- The value of a physical pixel (R37, R38). -/
def pixelAt (fb : Memory) (px py : Int) : Bool := (fb.read (pixelPos px py)).getLsbD (py.toNat % 8)

/-- A write of the logical pixel `(x, y)`: `PixelWrite(Rot(CFG_ORIENT, x, y), on)` (R164, R180). -/
def plot (o : Orient) (x y : Int) (on : Bool) (fb : Memory) : Memory :=
  pixelWrite (rot o x y).1 (rot o x y).2 on fb

/-- The value of the logical pixel `(x, y)`, read where it is shown (R161). -/
def logicalPixelAt (o : Orient) (fb : Memory) (x y : Int) : Bool := pixelAt fb (rot o x y).1 (rot o x y).2

/-! ## Transactions -/

/-- `Cmd(b)` (R20). -/
def cmd (b : Byte) : Transaction := .writeRegister Config.regCmd b

/-- `Dat(b)` (R20). -/
def dat (b : Byte) : Transaction := .writeRegister Config.regData b

/-- `Blk(bs)` (R20). -/
def blk (bs : List Byte) : Transaction := .writeBlock Config.regData bs

/-- `raise TransportFailure(k)` (R20, R303): the running sequence ends, nothing is rolled back, and the handler its rule
names runs. Init: ConfigFailed and CONFIG_FAILURE (R215). UPDATE: IO_ERROR, still Ready (R241). SHUTDOWN: swallowed and
logged (R274), and the operation goes on to its release with nothing left of its sequence. In the other states no sequence
runs. -/
def State.raiseTransportFailure (k : Nat) (s : State) : State :=
  match s.cstate with
  | .initializing => State.complete .configFailure 0#16 { s with cstate := .configFailed, seq := [] }
  | .ready => State.complete .ioError 0#16 { s with seq := [] }
  | .shuttingDown => { s with log := logOf k, seq := [] }
  | .uninitialized | .closed | .configFailed => s

/-- The transactions of one bus command, data byte or block, in order, each waiting for its answer (R20, R75): success goes on, an I/O
error raises TransportFailure at its ordinal, and where the transport never answers the FBC is left waiting (R309).
SEQ_K counts every answered transaction (R45, log 17). -/
def State.issue : List Transaction → State → State
  | [], s => s
  | t :: ts, s =>
    match s.answers with
    | [] => { s with trace := s.trace ++ [.transaction t none], waiting := true }
    | .success :: rest =>
      State.issue ts { s with
        trace := s.trace ++ [.transaction t (some .success)], answers := rest, seqK := s.seqK + 1 }
    | .failure :: rest =>
      State.raiseTransportFailure s.seqK { s with
        trace := s.trace ++ [.transaction t (some .failure)], answers := rest, seqK := s.seqK + 1 }

/-- A sequence is running and the transport is held: only then is a transaction issued (R42, R71). -/
def State.sequenceRuns (s : State) : Bool :=
  s.busy && s.txh &&
    match s.cstate with
    | .initializing | .ready | .shuttingDown => true
    | .uninitialized | .closed | .configFailed => false

/-- What a bus command, a data byte or a block does when the sequencer reaches it. -/
def emit (ts : List Transaction) (s : State) : Result :=
  if s.sequenceRuns then .next (s.issue ts) else .fault .transactionOutsideSequence

/-- A bus command: each of its bytes, opcode or argument, is one `Cmd` transaction, in order (R110). -/
def emitCommand (bytes : List Byte) (s : State) : Result := emit (bytes.map cmd) s

/-! ## The host request port -/

/-- A caller or the exit hook presents a request (R5, R104). -/
def State.present (caller : Nat) (r : Request) (s : State) : State := { s with port := s.port ++ [⟨caller, r⟩] }

/-- The callers that have a request waiting, each once, `seen` left out. -/
def callersWaiting (seen : List Nat) : List Waiting → List Nat
  | [] => []
  | q :: rest => if q.caller ∈ seen then callersWaiting seen rest else q.caller :: callersWaiting (q.caller :: seen) rest

/-- The oldest request of a caller, and the port without it (R85: one caller's requests keep their order). -/
def takeOldest (caller : Nat) : List Waiting → Option (Waiting × List Waiting)
  | [] => none
  | q :: rest =>
    if q.caller = caller then some (q, rest)
    else
      match takeOldest caller rest with
      | none => none
      | some (p, rest') => some (p, q :: rest')

/-- Which caller is served next, and the arbiter's counter after the choice: any one that waits (R104, U8). -/
def chooseCaller (s : State) : Option (Nat × Nat) :=
  match callersWaiting [] s.port with
  | [] => none
  | [c] => some (c, s.arbK)
  | c :: d :: cs => some ((c :: d :: cs).getD (Config.arbiter s.arbK % (cs.length + 2)) c, s.arbK + 1)

/-- R104: on acceptance BUSY is set and OP, ON, X, Y, W, H and, for DRAW_IMAGE, IMG are latched. -/
def State.latch (q : Waiting) (s : State) : State :=
  { s with
    busy := true, requester := some q.caller,
    op := reqOp q.request, on := reqOn q.request,
    x := q.request.x, y := q.request.y, w := q.request.w, h := q.request.h,
    img := if reqOp q.request = 0x04#8 then q.request.img else s.img }

/-- The acceptance of the next request (R104), if one waits. -/
def accept (s : State) : Option (Request × State) :=
  match chooseCaller s with
  | none => none
  | some (c, k) =>
    match takeOldest c s.port with
    | none => none
    | some (q, rest) => some (q.request, State.latch q { s with port := rest, arbK := k })

end Sys2Proof.Machine
end

