-- ==== Sys2Proof/Machine/Bus.lean ====
section
/-! DEFINITION. The bus commands (30_encoding.md R116 to R136) and the data byte (R112): what the FBC does when its running
sequence reaches one, which is to write its bytes to the panel. What the panel makes of them is outside the FBC (R115). -/

namespace Sys2Proof.Machine

/-- DISPLAY_OFF (R116). -/
def execDisplayOff (s : State) : Result := emitCommand [0xAE#8] s

/-- SET_CLOCK_DIV (R117). -/
def execSetClockDiv (arg : Byte) (s : State) : Result := emitCommand [0xD5#8, arg] s

/-- SET_MULTIPLEX (R118). -/
def execSetMultiplex (arg : Byte) (s : State) : Result := emitCommand [0xA8#8, arg] s

/-- SET_DISPLAY_OFFSET (R119). -/
def execSetDisplayOffset (arg : Byte) (s : State) : Result := emitCommand [0xD3#8, arg] s

/-- SET_START_LINE (R120): `0x40 | l`. -/
def execSetStartLine (l : BitVec 6) (s : State) : Result := emitCommand [0x40#8 ||| l.setWidth 8] s

/-- CHARGE_PUMP (R121). -/
def execChargePump (arg : Byte) (s : State) : Result := emitCommand [0x8D#8, arg] s

/-- SET_MEMORY_MODE (R122). -/
def execSetMemoryMode (arg : Byte) (s : State) : Result := emitCommand [0x20#8, arg] s

/-- SEGMENT_REMAP (R123): `0xA0 | r`. -/
def execSegmentRemap (r : BitVec 1) (s : State) : Result := emitCommand [0xA0#8 ||| r.setWidth 8] s

/-- COM_SCAN_DIR (R124): `0xC0 | (d << 3)`. -/
def execComScanDir (d : BitVec 1) (s : State) : Result := emitCommand [0xC0#8 ||| (d.setWidth 8 <<< 3)] s

/-- SET_COM_PINS (R125). -/
def execSetComPins (arg : Byte) (s : State) : Result := emitCommand [0xDA#8, arg] s

/-- SET_CONTRAST (R126). -/
def execSetContrast (arg : Byte) (s : State) : Result := emitCommand [0x81#8, arg] s

/-- SET_PRECHARGE (R127). -/
def execSetPrecharge (arg : Byte) (s : State) : Result := emitCommand [0xD9#8, arg] s

/-- SET_VCOMH (R128). -/
def execSetVcomh (arg : Byte) (s : State) : Result := emitCommand [0xDB#8, arg] s

/-- DISPLAY_RESUME (R129). -/
def execDisplayResume (s : State) : Result := emitCommand [0xA4#8] s

/-- NORMAL_DISPLAY (R130). -/
def execNormalDisplay (s : State) : Result := emitCommand [0xA6#8] s

/-- DISPLAY_ON (R131). -/
def execDisplayOn (s : State) : Result := emitCommand [0xAF#8] s

/-- SET_COLUMN_RANGE (R132): start, then end. -/
def execSetColumnRange (first last : Byte) (s : State) : Result := emitCommand [0x21#8, first, last] s

/-- SET_PAGE_RANGE (R133): start, then end. -/
def execSetPageRange (first last : Byte) (s : State) : Result := emitCommand [0x22#8, first, last] s

/-- SET_PAGE_START (R134): `0xB0 | p`. -/
def execSetPageStart (p : BitVec 3) (s : State) : Result := emitCommand [0xB0#8 ||| p.setWidth 8] s

/-- SET_COL_LOW (R135): `0x00 | c`. -/
def execSetColLow (c : BitVec 4) (s : State) : Result := emitCommand [0x00#8 ||| c.setWidth 8] s

/-- SET_COL_HIGH (R136): `0x10 | c`. -/
def execSetColHigh (c : BitVec 4) (s : State) : Result := emitCommand [0x10#8 ||| c.setWidth 8] s

/-- DATA (R112): `Dat(b)` (R20), the byte unchanged. -/
def execData (d : Byte) (s : State) : Result := emit [dat d] s

end Sys2Proof.Machine
end

