-- ==== Sys2Proof/Machine/Drawing.lean ====
section
/-! DEFINITION. The drawing operations (42_drawing.md): CLEAR_RECT (R181) with its pseudo-operations (R109), and DRAW_IMAGE
(R186). -/

namespace Sys2Proof.Machine

/-- FB with every pixel of the panel given the value `f u v old`, where `(u, v)` is the logical pixel shown there (R168) and `old` its
value. Bit `b` of byte `k` is the physical pixel `(k mod 128, 8 * (k div 128) + b)` (R37). -/
def repaint (o : Orient) (f : Int → Int → Bool → Bool) (fb : Memory) : Memory :=
  Memory.ofBytes fun k =>
    let old := fb.read k
    byteOfBits fun b =>
      let p := unrot o (k % 128 : Nat) (8 * (k / 128) + b : Nat)
      f p.1 p.2 (old.getLsbD b)

/-- The framebuffer CLEAR_RECT leaves (R181), as its clipping law gives it (R182): a logical pixel of the panel inside the rectangle
takes the value `on`, every other keeps its own; `x + w` and `y + h` never wrap (R16), and no pixel is inside when `w ≤ 0` or
`h ≤ 0`. It is what R181's loops leave (`rectangleLoops`). -/
def fillRectangle (o : Orient) (x y w h : Int) (on : Bool) (fb : Memory) : Memory :=
  repaint o (fun u v old => if x ≤ u ∧ u < x + w ∧ y ≤ v ∧ v < y + h then on else old) fb

/-- The loops of CLEAR_RECT as R181 writes them. -/
def rectangleLoops (o : Orient) (x y w h : Int) (on : Bool) (fb : Memory) : Memory :=
  (List.range h.toNat).foldl
    (fun (fb : Memory) (j : Nat) => (List.range w.toNat).foldl
      (fun (fb : Memory) (i : Nat) => plot o (x + (i : Int)) (y + (j : Int)) on fb) fb) fb

/-- The framebuffer DRAW_IMAGE leaves (R186): the logical pixel `(x + col, y + row)` takes the bitmap's pixel `(col, row)`, a 0 bit
clearing it, for every `(col, row)` of the LW by LH bitmap (R184); every other pixel keeps its value. It is what R186's loops leave
(`imageLoops`). -/
def blit (o : Orient) (img : Image) (x y : Int) (fb : Memory) : Memory :=
  repaint o
    (fun u v old =>
      if x ≤ u ∧ u < x + logicalWidth o ∧ y ≤ v ∧ v < y + logicalHeight o then
        imgBit img ((v - y).toNat * logicalWidth o + (u - x).toNat)
      else old) fb

/-- The loops of DRAW_IMAGE as R186 writes them. -/
def imageLoops (o : Orient) (img : Image) (x y : Int) (fb : Memory) : Memory :=
  (List.range (logicalHeight o)).foldl
    (fun (fb : Memory) (row : Nat) => (List.range (logicalWidth o)).foldl
      (fun (fb : Memory) (col : Nat) =>
        plot o (x + (col : Int)) (y + (row : Int)) (imgBit img (row * logicalWidth o + col)) fb) fb) fb

/-- The rule of CLEAR_RECT (R181). -/
def State.clearRectRule (x y w h : Word) (on : Bool) (s : State) : State :=
  State.complete .ok 0#16
    { s with fb := fillRectangle s.cfgOrient (sext16 x) (sext16 y) (sext16 w) (sext16 h) on s.fb }

/-- CLEAR_RECT (R181). -/
def execClearRect (x y w h : Word) (on : Bool) (s : State) : Result :=
  whenLegal 0x03#8 s (State.clearRectRule x y w h on)

/-- FILL_RECT x, y, w, h = CLEAR_RECT x, y, w, h, 1 (R109). -/
def execFillRect (x y w h : Word) (s : State) : Result := whenLegal 0x03#8 s (State.clearRectRule x y w h true)

/-- ERASE_RECT x, y, w, h = CLEAR_RECT x, y, w, h, 0 (R109). -/
def execEraseRect (x y w h : Word) (s : State) : Result := whenLegal 0x03#8 s (State.clearRectRule x y w h false)

/-- DRAW_IMAGE (R186). -/
def execDrawImage (img : Image) (x y : Word) (s : State) : Result :=
  whenLegal 0x04#8 s fun s =>
    State.complete .ok 0#16 { s with fb := blit s.cfgOrient img (sext16 x) (sext16 y) s.fb }

end Sys2Proof.Machine
end

