-- ==== Sys2Proof/Machine/Pixels.lean ====
section
/-! DEFINITION. CLEAR (40_framebuffer.md R143), SET_PIXEL and the dimension queries (41_rotation.md R163, R166, R167), and the
pseudo-operations on one pixel (R109). -/

namespace Sys2Proof.Machine

/-- The rule of SET_PIXEL (R163): one pixel through the rotation transform, then OK. -/
def State.setPixelRule (x y : Word) (on : Bool) (s : State) : State :=
  State.complete .ok 0#16 { s with fb := plot s.cfgOrient (sext16 x) (sext16 y) on s.fb }

/-- CLEAR (R143). -/
def execClear (s : State) : Result :=
  whenLegal 0x01#8 s fun s => State.complete .ok 0#16 { s with fb := Memory.cleared }

/-- SET_PIXEL (R163). -/
def execSetPixel (x y : Word) (on : Bool) (s : State) : Result := whenLegal 0x02#8 s (State.setPixelRule x y on)

/-- PSET x, y = SET_PIXEL x, y, 1 (R109). -/
def execPset (x y : Word) (s : State) : Result := whenLegal 0x02#8 s (State.setPixelRule x y true)

/-- PCLR x, y = SET_PIXEL x, y, 0 (R109). -/
def execPclr (x y : Word) (s : State) : Result := whenLegal 0x02#8 s (State.setPixelRule x y false)

/-- GET_WIDTH (R166): `respond(OK, zext_16(LW))`. -/
def execGetWidth (s : State) : Result :=
  whenLegal 0x07#8 s fun s => State.complete .ok (BitVec.ofNat 16 (logicalWidth s.cfgOrient)) s

/-- GET_HEIGHT (R167): `respond(OK, zext_16(LH))`. -/
def execGetHeight (s : State) : Result :=
  whenLegal 0x08#8 s fun s => State.complete .ok (BitVec.ofNat 16 (logicalHeight s.cfgOrient)) s

end Sys2Proof.Machine
end

