-- ==== Sys2Proof/Machine/Sequences.lean ====
section
/-! DEFINITION. The FBC's own sequences: the initialization sequence (43_init_sequencer.md R214), the refresh protocols
(44_refresh.md R240 to R249), and the operations that start one: UPDATE (R241) and SHUTDOWN (45_shutdown.md R271). -/

namespace Sys2Proof.Machine

/-- `MODE_BYTE(CFG_AMODE)` (R219). -/
def modeByte : AMode → Byte
  | .horizontal => 0x00#8
  | .page => 0x02#8

/-- The init command sequence (R214). -/
def initSequence (p : Params) (m : AMode) : List SeqItem :=
  [ .bus .displayOff,
    .bus (.setClockDiv p.clkDiv),
    .bus (.setMultiplex 0x3F#8),
    .bus (.setDisplayOffset 0x00#8),
    .bus (.setStartLine 0#6),
    .bus (.chargePump p.chargePump),
    .bus (.setMemoryMode (modeByte m)),
    .bus (.segmentRemap p.segRemap),
    .bus (.comScanDir p.comScan),
    .bus (.setComPins p.comPins),
    .bus (.setContrast p.contrast),
    .bus (.setPrecharge p.precharge),
    .bus (.setVcomh p.vcomh),
    .bus .displayResume,
    .bus .normalDisplay,
    .bus .displayOn ]

/-- `RefreshH()` (R242, R243). -/
def refreshH (fb : Memory) : List SeqItem :=
  [.bus (.setColumnRange 0x00#8 0x7F#8), .bus (.setPageRange 0x00#8 0x07#8)] ++
    (List.range 64).map (fun c => .block (fb.bytes (16 * c) 16))

/-- The data of page `p` (R247, R248). -/
def pageData (tx : PageTx) (fb : Memory) (p : Nat) : List SeqItem :=
  match tx with
  | .single => (fb.bytes (128 * p) 128).map (fun b => .bus (.data b))
  | .block => [.block (fb.bytes (128 * p) 128)]

/-- `RefreshP()` (R246, R247). -/
def refreshP (tx : PageTx) (fb : Memory) : List SeqItem :=
  (List.range 8).flatMap fun p =>
    [.bus (.setPageStart (BitVec.ofNat 3 p)), .bus (.setColLow 0#4), .bus (.setColHigh 0#4)] ++ pageData tx fb p

/-- The refresh sequence of the configured addressing mode (R240). -/
def refreshSequence (m : AMode) (tx : PageTx) (fb : Memory) : List SeqItem :=
  match m with
  | .horizontal => refreshH fb
  | .page => refreshP tx fb

/-- The start of `Refresh()` (R240): `SEQ_K <- 0`, and the sequence to issue. Its data bytes are taken from FB here; FB
does not change before the last of them is sent (R88, log 8). -/
def State.startRefresh (s : State) : State :=
  { s with seqK := 0, seq := refreshSequence s.cfgAmode s.params.pageTx s.fb }

/-- UPDATE (R241): starts the refresh; the sequencer issues it and `State.finish` gives the response. -/
def execUpdate (s : State) : Result := whenLegal 0x05#8 s State.startRefresh

/-- The rule of SHUTDOWN (R271): in Closed and ConfigFailed a no-op with response OK (R277); in Ready, ShuttingDown, the clear (R272) and
the start of the final refresh; the sequencer issues it and `State.finish` releases the transport. -/
def State.shutdownRule (s : State) : State :=
  match s.cstate with
  | .closed | .configFailed => s.complete .ok 0#16
  | .uninitialized | .initializing | .ready | .shuttingDown =>
    State.startRefresh { s with cstate := .shuttingDown, fb := Memory.cleared }

/-- SHUTDOWN (R271). -/
def execShutdown (s : State) : Result := whenLegal 0x06#8 s State.shutdownRule

/-- Construction's first step (R212, R213): the transport is acquired. Success: TXH, Initializing, and the init sequence to
issue. Failure: ConfigFailed, with no transaction issued. No answer: the FBC waits in Uninitialized. -/
def acquire (s : State) : State :=
  match s.answers with
  | [] => { s with trace := s.trace ++ [.acquire s.cfgBus s.cfgAddr none], waiting := true }
  | .success :: rest =>
    { s with
      trace := s.trace ++ [.acquire s.cfgBus s.cfgAddr (some .success)], answers := rest,
      txh := true, cstate := .initializing, seqK := 0, seq := initSequence s.params s.cfgAmode }
  | .failure :: rest =>
    State.complete .configFailure 0#16
      { s with
        trace := s.trace ++ [.acquire s.cfgBus s.cfgAddr (some .failure)], answers := rest, cstate := .configFailed }

/-- The end of the running sequence, nothing of it left to issue. Init: Ready and OK (R216). UPDATE: OK (R241). SHUTDOWN: the
release (R275), Closed (R276), and OK whether or not the final refresh failed (R274). In the other states no sequence
runs. -/
def State.finish (s : State) : State :=
  match s.cstate with
  | .initializing => State.complete .ok 0#16 { s with cstate := .ready }
  | .ready => s.complete .ok 0#16
  | .shuttingDown =>
    State.complete .ok 0#16 { s with trace := s.trace ++ [.release], txh := false, cstate := .closed }
  | .uninitialized | .closed | .configFailed => s

end Sys2Proof.Machine
end

