-- ==== Sys2Proof/Machine/Dispatch.lean ====
section
/-! DEFINITION. One arm per instruction. -/

namespace Sys2Proof.Machine

/-- The meaning of one instruction: of a host operation once its request is accepted (R107), of a bus command or data byte
once the running sequence reaches it. -/
def exec (i : Instr) (s : State) : Host.Outcome State Fault Refusal :=
  match i with
  -- host operations, R105
  | .clear => Sys2Proof.Machine.execClear s
  | .setPixel x y on => Sys2Proof.Machine.execSetPixel x y on s
  | .clearRect x y w h on => Sys2Proof.Machine.execClearRect x y w h on s
  | .drawImage img x y => Sys2Proof.Machine.execDrawImage img x y s
  | .update => Sys2Proof.Machine.execUpdate s
  | .shutdown => Sys2Proof.Machine.execShutdown s
  | .getWidth => Sys2Proof.Machine.execGetWidth s
  | .getHeight => Sys2Proof.Machine.execGetHeight s
  -- pseudo-operations, R109
  | .pset x y => Sys2Proof.Machine.execPset x y s
  | .pclr x y => Sys2Proof.Machine.execPclr x y s
  | .fillRect x y w h => Sys2Proof.Machine.execFillRect x y w h s
  | .eraseRect x y w h => Sys2Proof.Machine.execEraseRect x y w h s
  -- bus commands, R116 to R136
  | .displayOff => Sys2Proof.Machine.execDisplayOff s
  | .setClockDiv arg => Sys2Proof.Machine.execSetClockDiv arg s
  | .setMultiplex arg => Sys2Proof.Machine.execSetMultiplex arg s
  | .setDisplayOffset arg => Sys2Proof.Machine.execSetDisplayOffset arg s
  | .setStartLine l => Sys2Proof.Machine.execSetStartLine l s
  | .chargePump arg => Sys2Proof.Machine.execChargePump arg s
  | .setMemoryMode arg => Sys2Proof.Machine.execSetMemoryMode arg s
  | .segmentRemap r => Sys2Proof.Machine.execSegmentRemap r s
  | .comScanDir d => Sys2Proof.Machine.execComScanDir d s
  | .setComPins arg => Sys2Proof.Machine.execSetComPins arg s
  | .setContrast arg => Sys2Proof.Machine.execSetContrast arg s
  | .setPrecharge arg => Sys2Proof.Machine.execSetPrecharge arg s
  | .setVcomh arg => Sys2Proof.Machine.execSetVcomh arg s
  | .displayResume => Sys2Proof.Machine.execDisplayResume s
  | .normalDisplay => Sys2Proof.Machine.execNormalDisplay s
  | .displayOn => Sys2Proof.Machine.execDisplayOn s
  | .setColumnRange first last => Sys2Proof.Machine.execSetColumnRange first last s
  | .setPageRange first last => Sys2Proof.Machine.execSetPageRange first last s
  | .setPageStart p => Sys2Proof.Machine.execSetPageStart p s
  | .setColLow c => Sys2Proof.Machine.execSetColLow c s
  | .setColHigh c => Sys2Proof.Machine.execSetColHigh c s
  -- a pixel-data byte, R112
  | .data d => Sys2Proof.Machine.execData d s

end Sys2Proof.Machine
end

