-- ==== Sys2Proof/Machine/Fetch.lean ====
section
/-! DEFINITION. What the FBC does next (R107, R210, R309): the acquisition, the next item of the running sequence, the end of
that sequence, or the next request. -/

namespace Sys2Proof.Machine

/-- What the next step runs, and the state it runs it on. -/
inductive Fetched where
  /-- A transaction or the acquisition is never answered (R309). -/
  | stuck
  /-- BUSY with no operation to run. -/
  | noOperation
  /-- Construction's acquisition (R212). -/
  | acquisition
  /-- An instruction: the next bus command or data byte of the sequence, or the accepted request's operation. -/
  | instr (i : Instr) (s : State)
  /-- The next data block of the sequence. -/
  | block (bytes : List Byte) (s : State)
  /-- The sequence has nothing left to issue. -/
  | sequenceEnd
  /-- The accepted request spells no operation (R106). -/
  | illegal (s : State)
  /-- No operation runs and no request waits. -/
  | idle
  deriving DecidableEq, Repr

/-- The sequencer: the head of what the running sequence has still to issue, taken off it. -/
def fetchSequence (s : State) : Fetched :=
  match s.seq with
  | [] => .sequenceEnd
  | .bus i :: rest => .instr i { s with seq := rest }
  | .block bytes :: rest => .block bytes { s with seq := rest }

/-- The request port: acceptance (R104) and the first check of dispatch (R107). -/
def fetchRequest (s : State) : Fetched :=
  match accept s with
  | none => .idle
  | some (r, s') =>
    match decodeRequest r with
    | .ok i => .instr i s'
    | .error _ => .illegal s'

/-- While BUSY the running operation goes on and no request is accepted (R46, R104). -/
def fetch (s : State) : Fetched :=
  if s.waiting then .stuck
  else if s.busy then
    match s.cstate with
    | .uninitialized => .acquisition
    | .initializing | .ready | .shuttingDown => fetchSequence s
    | .closed | .configFailed => .noOperation
  else fetchRequest s

/-! ## Placing an instruction where it is fetched -/

/-- The controller as a successful construction leaves it (R216), unless it already accepts requests (R306). -/
def accepting (s : State) : State :=
  match s.cstate with
  | .ready | .closed | .configFailed => { s with waiting := false, busy := false, seq := [] }
  | .uninitialized | .initializing | .shuttingDown =>
    { s with waiting := false, busy := false, seq := [], cstate := .ready, txh := true }

/-- A request alone on the port of a controller that accepts it. -/
def placeRequest (r : Request) (s : State) : State := { accepting s with port := [⟨0, r⟩] }

/-- The controller with a sequence running: the one it runs already, or else the init sequence (R213). -/
def sequencing (s : State) : State :=
  match s.cstate with
  | .ready | .initializing | .shuttingDown => { s with waiting := false, busy := true, txh := true }
  | .uninitialized | .closed | .configFailed =>
    { s with waiting := false, busy := true, txh := true, cstate := .initializing }

/-- A bus command or data byte as the next and only item of the running sequence, with a transport that answers it
(R344): where the answers to come are not listed, three successes, as many as a command has bytes (log 14). -/
def placeItem (i : Instr) (s : State) : State :=
  { sequencing s with
    seq := [.bus i], answers := if s.answers.isEmpty then [.success, .success, .success] else s.answers }

/-- The words of a table row placed where the next step fetches them. -/
def placeWords (nbits w : Nat) (s : State) : State :=
  match wordsOfTableWord nbits w with
  | some (.request r) => placeRequest r s
  | some (.command bytes) =>
    match decode (.command bytes) with
    | .ok i => placeItem i s
    | .error _ => s
  | some (.data d) => placeItem (.data d) s
  | none => s

end Sys2Proof.Machine
end

