-- ==== Sys2Proof/Machine/Step.lean ====
section
/-! DEFINITION. One step of the FBC. -/

namespace Sys2Proof.Machine

/-- One step: what `fetch` finds, run. A stuck FBC has no step (R309); an idle one stays as it is. -/
def step (s : State) : Host.Outcome State Fault Refusal :=
  match fetch s with
  | .stuck => .fault .transportNeverAnswers
  | .noOperation => .fault .busyWithoutOperation
  | .acquisition => .next (acquire s)
  | .instr i s' => exec i s'
  | .block bytes s' => emit [blk bytes] s'
  | .sequenceEnd => .next s.finish
  | .illegal s' => .next (s'.recordFault .illegalOp)
  | .idle => .next s

/-- `n` steps, stopping at the first fault or refusal. -/
def run : Nat → State → Host.Outcome State Fault Refusal
  | 0, s => .next s
  | n + 1, s =>
    match step s with
    | .next t => run n t
    | .fault r => .fault r
    | .refused r => .refused r

/-- `s` with an instruction's words where the next step fetches it: a request on the port, a bus command or data byte in the
running sequence. -/
def State.withFetchWord (s : State) (nbits w : Nat) : State := placeWords nbits w s

end Sys2Proof.Machine
end

