-- ==== Sys2Proof/Machine/Text.lean ====
section
/-! DEFINITION. Text layout (42_drawing.md R195 to R203): the client of the FBC that turns text into SET_PIXEL requests. The
font is external and a parameter; the client has no state in the FBC (R203). Arithmetic is over ℤ (R16). -/

namespace Sys2Proof.Machine

/-- The font capability FONT (R195). `glyph c cx cy on` is what the renderer asks for, in order: logical pixels and their
values. -/
structure Font where
  fh    : Nat
  cw    : Nat → Nat
  adv   : Nat → Nat
  strw  : List Nat → Nat
  glyph : Nat → Int → Int → Bool → List (Int × Int × Bool)

/-- What R195 assumes of a font: a positive line height, and glyphs that stay inside their cells. -/
def Font.ok (f : Font) : Prop :=
  0 < f.fh ∧
    ∀ c cx cy on, ∀ p ∈ f.glyph c cx cy on,
      cx ≤ p.1 ∧ p.1 < cx + f.cw c ∧ cy ≤ p.2.1 ∧ p.2.1 < cy + f.fh

/-- The newline character (R198). -/
def newlineCode : Nat := 0x0A

/-- The SET_PIXEL request of one pixel a glyph asks for. -/
def pixelRequest (p : Int × Int × Bool) : Instr := .setPixel (BitVec.ofInt 16 p.1) (BitVec.ofInt 16 p.2.1) p.2.2

/-- The glyph cell lies fully inside the logical panel (R196). -/
abbrev cellInside (o : Orient) (f : Font) (c : Nat) (x y : Int) : Prop :=
  0 ≤ x ∧ x + f.cw c ≤ logicalWidth o ∧ 0 ≤ y ∧ y + f.fh ≤ logicalHeight o

/-- drawChar(c, x, y, on) (R196): a glyph whose cell is not fully inside is not drawn at all. -/
def drawChar (o : Orient) (f : Font) (c : Nat) (x y : Int) (on : Bool) : List Instr :=
  if cellInside o f c x y then (f.glyph c x y on).map pixelRequest else []

/-- Where drawString's cursor stands at each character that is not a newline (R197): the character, and the cursor. `x` is the call's
own, where a newline returns to. -/
def placements (f : Font) (x : Int) : Int → Int → List Nat → List (Nat × Int × Int)
  | _, _, [] => []
  | cx, cy, c :: text =>
    if c = newlineCode then placements f x x (cy + f.fh) text
    else (c, cx, cy) :: placements f x (cx + f.adv c) cy text

/-- drawString(text, x, y, on) (R197). -/
def drawString (o : Orient) (f : Font) (text : List Nat) (x y : Int) (on : Bool) : List Instr :=
  (placements f x x y text).flatMap fun p => drawChar o f p.1 p.2.1 p.2.2 on

/-- Center(LW, sw) (R201): the quotient truncated toward zero. -/
def center (lw sw : Int) : Int := (lw - sw).tdiv 2

/-- drawStringCentered(text, y, on) (R199). -/
def drawStringCentered (o : Orient) (f : Font) (text : List Nat) (y : Int) (on : Bool) : List Instr :=
  drawString o f text (center (logicalWidth o) (f.strw text)) y on

/-- A caller presents a list of requests, in order (R5, R200). -/
def State.presentAll (caller : Nat) (is : List Instr) (s : State) : State :=
  is.foldl (fun s i => match encode i with | .request r => s.present caller r | _ => s) s

end Sys2Proof.Machine
end

