-- ==== Sys2Proof/Safety.lean ====
section
/-! DEFINITION. The terms statements use: the transactions of each sequence as the spec lists them (R214, R242 to R247), legal
transitions (R41), stuck and good ends (R309, R319), and the invariant of the FBC's states. -/

namespace Sys2Proof

open Machine

/-- The bytes of a bus command (R110); none for any other instruction. -/
def commandBytes (i : Instr) : List Byte :=
  match encode i with
  | .command bytes => bytes
  | .request _ | .data _ => []

/-- The transactions of one item of a sequence, from its encoding (R20, R110, R112). -/
def itemTransactions : SeqItem → List Transaction
  | .bus i =>
    match encode i with
    | .command bytes => bytes.map cmd
    | .data d => [dat d]
    | .request _ => []
  | .block bytes => [blk bytes]

/-- The transactions the items of a refresh sequence issue, in order (R240). -/
def refreshIssues (m : AMode) (tx : PageTx) (fb : Memory) : List Transaction :=
  (refreshSequence m tx fb).flatMap itemTransactions

/-- The 25 bytes of the init sequence, as R214's table lists them. -/
def initBytes (p : Params) (m : AMode) : List Byte :=
  [0xAE#8, 0xD5#8, p.clkDiv, 0xA8#8, 0x3F#8, 0xD3#8, 0x00#8, 0x40#8, 0x8D#8, p.chargePump, 0x20#8, modeByte m,
    0xA0#8 ||| p.segRemap.setWidth 8, 0xC0#8 ||| (p.comScan.setWidth 8 <<< 3), 0xDA#8, p.comPins, 0x81#8, p.contrast,
    0xD9#8, p.precharge, 0xDB#8, p.vcomh, 0xA4#8, 0xA6#8, 0xAF#8]

/-- `RefreshH()` as R242 and R243 list it. -/
def horizontalTransactions (fb : Memory) : List Transaction :=
  [cmd 0x21#8, cmd 0x00#8, cmd 0x7F#8, cmd 0x22#8, cmd 0x00#8, cmd 0x07#8] ++
    (List.range 64).map fun c => blk (fb.bytes (16 * c) 16)

/-- `RefreshP()` as R247 lists it. -/
def pageTransactions (tx : PageTx) (fb : Memory) : List Transaction :=
  (List.range 8).flatMap fun p =>
    [cmd (0xB0#8 + BitVec.ofNat 8 p), cmd 0x00#8, cmd 0x10#8] ++
      match tx with
      | .single => (List.range 128).map fun c => dat (fb.read (128 * p + c))
      | .block => [blk (fb.bytes (128 * p) 128)]

/-- The transactions of a refresh (R240). -/
def refreshTransactions (m : AMode) (tx : PageTx) (fb : Memory) : List Transaction :=
  match m with
  | .horizontal => horizontalTransactions fb
  | .page => pageTransactions tx fb

/-- The pixel-data bytes of transactions, in order: what is written to register 0x40 (R12, R78). -/
def dataBytes (ts : List Transaction) : List Byte :=
  ts.flatMap fun t =>
    match t with
    | .writeRegister addr value => if addr = Config.regData then [value] else []
    | .writeBlock addr bytes => if addr = Config.regData then bytes else []

/-- The trace of transactions all answered with success (R75). -/
def succeeded (ts : List Transaction) : List Event := ts.map fun t => .transaction t (some .success)

/-- R41: the legal transitions of CSTATE; no other exists. -/
def legalTransition : CState → CState → Bool
  | .uninitialized, .initializing | .uninitialized, .configFailed => true
  | .initializing, .ready | .initializing, .configFailed => true
  | .ready, .shuttingDown | .shuttingDown, .closed => true
  | _, _ => false

/-- R309: an acquisition or transaction the transport never answers has left the FBC stuck. -/
def Stuck (s : State) : Prop := s.waiting = true

/-- R319: construction has given its status, no request waits, no operation runs, no usage fault is recorded, and each of the
`presented` requests got its response beside the construction status. -/
def GoodEnd (presented : Nat) (s : State) : Prop :=
  (∃ r ∈ s.responses, r.dest = none) ∧ s.port = [] ∧ s.busy = false ∧ s.fault = 0#2 ∧
    s.responses.length = presented + 1

/-- An item the FBC's sequences may hold: a well-formed bus command or data byte (R111, R114), or a block of 16 or 128
bytes (R74). -/
def SeqItemOk : SeqItem → Prop
  | .bus i => i.isBus = true ∧ i.wf = true
  | .block bytes => bytes.length = 16 ∨ bytes.length = 128

/-- Which values TXH, BUSY and the sequence may have in each controller state (R42, R46, R210, R271). -/
def ControlOk (s : State) : Prop :=
  match s.cstate with
  | .uninitialized => s.txh = false ∧ s.busy = true ∧ s.seq = []
  | .initializing | .shuttingDown => s.txh = true ∧ s.busy = true
  | .ready => s.txh = true ∧ (s.busy = false → s.seq = [])
  | .closed => s.txh = false ∧ s.busy = false ∧ s.seq = []
  | .configFailed => s.busy = false ∧ s.seq = []

/-- The invariant: FB is a canonical framebuffer (R36), the control state is one the rules give, the sequence holds only what
the FBC may send (R111, R74), only a busy FBC waits for an answer (R309), and SDERR_K is 0 where SDERR is (R43). -/
structure Inv (s : State) : Prop where
  fb      : s.fb.fbWf
  control : ControlOk s
  items   : ∀ item ∈ s.seq, SeqItemOk item
  waits   : s.waiting = true → s.busy = true
  log     : logSderr s.log = false → s.log = 0#17

end Sys2Proof
end

