-- ==== Sys2Proof/Certificates/Slice0/Obligations.lean ====
section
/-! DEFINITION. The statements for the provers: what the rules of spec/ say of the FBC. -/

open Sys2Proof Sys2Proof.Machine

/-! ## Encoding -/

/-- R105, R109, R110, R112: the words of an instruction decode to it, and those of a pseudo-operation to the request it
expands to, with every operand at every value. -/
def Obligations.DecodeOfEncodeIsTheCoreInstruction : Prop :=
  ∀ i : Instr, decode (encode i) = .ok i.core

/-- R111: the command bytes of a trace decode by position to the commands that were sent. -/
def Obligations.TraceCommandsDecodeByPosition : Prop :=
  ∀ is : List Instr, (∀ i ∈ is, i.isBus = true ∧ ∀ d, i ≠ .data d) →
    decodeCommands is.length (is.flatMap commandBytes) = .ok is

/-- R106: a request spells no operation exactly when its opcode is 0x00 or 0x09 to 0xFF, or a reserved bit is set. -/
def Obligations.RequestsAreRejectedExactlyWhenReserved : Prop :=
  ∀ r : Request,
    (∃ e, decodeRequest r = .error e) ↔
      (r.req.toNat % 256 = 0 ∨ 9 ≤ r.req.toNat % 256 ∨ 512 ≤ r.req.toNat)

/-- R102, R105: a request is read only through the operands its operation uses; any other operand word, and an unused ON bit, is
ignored. -/
def Obligations.UnusedOperandsAreIgnored : Prop :=
  ∀ r r' : Request,
    r.req.toNat % 256 = r'.req.toNat % 256 → r.req.toNat / 512 = 0 → r'.req.toNat / 512 = 0 →
    (r.req.toNat % 256 ∈ [2, 3, 4] → r.x = r'.x ∧ r.y = r'.y) →
    (r.req.toNat % 256 ∈ [2, 3] → r.req.getLsbD 8 = r'.req.getLsbD 8) →
    (r.req.toNat % 256 = 3 → r.w = r'.w ∧ r.h = r'.h) →
    (r.req.toNat % 256 = 4 → r.img = r'.img) →
    1 ≤ r.req.toNat % 256 → r.req.toNat % 256 ≤ 8 →
    ∃ i, decodeRequest r = .ok i ∧ decodeRequest r' = .ok i

/-- Words written out from R101, R116, R117, R120, R132, R134 and R112 decode to what they spell. -/
def Obligations.WordsOfEachFormatDecode : Prop :=
  decode (.request { req := 0x0102#16, x := 0xFFFF#16, y := 0x0008#16 }) = .ok (.setPixel 0xFFFF#16 0x0008#16 true) ∧
    decode (.request { req := 0x0003#16, x := 1#16, y := 2#16, w := 3#16, h := 4#16 }) =
      .ok (.clearRect 1#16 2#16 3#16 4#16 false) ∧
    decode (.command [0b10101110#8]) = .ok .displayOff ∧
    decode (.command [0b11010101#8, 0x80#8]) = .ok (.setClockDiv 0x80#8) ∧
    decode (.command [0b01000101#8]) = .ok (.setStartLine 5#6) ∧
    decode (.command [0b00100001#8, 0x00#8, 0x7F#8]) = .ok (.setColumnRange 0x00#8 0x7F#8) ∧
    decode (.command [0b10110111#8]) = .ok (.setPageStart 7#3) ∧
    decode (.data 0b10000001#8) = .ok (.data 0x81#8)

/-! ## Rotation and the pixel unit -/

/-- R162: Rot maps the logical panel onto the native panel, one to one, and a point lies in the one exactly when its image lies
in the other; so the pixel unit's bounds check drops exactly the writes outside the logical panel. -/
def Obligations.RotationIsABijectionOfThePanels : Prop :=
  ∀ o : Orient,
    (∀ x y : Int, inLogical o x y ↔ inPhysical (rot o x y).1 (rot o x y).2) ∧
    (∀ x y u v : Int, rot o x y = rot o u v → x = u ∧ y = v) ∧
    (∀ px py : Int, inPhysical px py → ∃ x y : Int, inLogical o x y ∧ rot o x y = (px, py)) ∧
    (∀ (x y : Int) (on : Bool) (fb : Memory), ¬ inLogical o x y → plot o x y on fb = fb)

/-- R165, R161: after SET_PIXEL of a pixel of the logical panel in Ready, the physical pixel the rule gives for the orientation has the value: `(x, y)`
at 0°, `(y, 63 - x)` at 90°, `(127 - x, 63 - y)` at 180°, `(127 - y, x)` at 270°. -/
def Obligations.RotatedPixelsLandWhereTheRuleSays : Prop :=
  ∀ (s : State) (x y : Word) (on : Bool), s.cstate = .ready → s.fb.fbWf → inLogical s.cfgOrient x.toInt y.toInt →
    ∃ t, exec (.setPixel x y on) s = .next t ∧
      match s.cfgOrient with
      | .deg0 => pixelAt t.fb x.toInt y.toInt = on
      | .deg90 => pixelAt t.fb y.toInt (63 - x.toInt) = on
      | .deg180 => pixelAt t.fb (127 - x.toInt) (63 - y.toInt) = on
      | .deg270 => pixelAt t.fb (127 - y.toInt) x.toInt = on

/-- R144: PixelWrite changes at most bit `py mod 8` of `FB[px + (py div 8) * 128]`. -/
def Obligations.PixelWriteChangesOnlyItsBit : Prop :=
  ∀ (fb : Memory) (px py : Int) (on : Bool) (k b : Nat), fb.fbWf →
    ¬ (k = px.toNat + py.toNat / 8 * 128 ∧ b = py.toNat % 8) →
    ((pixelWrite px py on fb).read k).getLsbD b = (fb.read k).getLsbD b

/-- R146: after PixelWrite of a pixel of the panel, bit `py mod 8` of byte `px + (py div 8) * 128` is the value written. -/
def Obligations.PixelWriteReadsBack : Prop :=
  ∀ (fb : Memory) (px py : Nat) (on : Bool), fb.fbWf → px < 128 → py < 64 →
    ((pixelWrite px py on fb).read (px + py / 8 * 128)).getLsbD (py % 8) = on

/-- R145: two PixelWrites of one pixel leave what the later one leaves, and PixelWrites of different pixels commute. -/
def Obligations.PixelWritesAreIdempotentAndCommute : Prop :=
  ∀ (fb : Memory) (px py qx qy : Int) (a b : Bool), fb.fbWf →
    pixelWrite px py a (pixelWrite px py a fb) = pixelWrite px py a fb ∧
    pixelWrite px py b (pixelWrite px py a fb) = pixelWrite px py b fb ∧
    ((px, py) ≠ (qx, qy) →
      pixelWrite px py a (pixelWrite qx qy b fb) = pixelWrite qx qy b (pixelWrite px py a fb))

/-- R142: a write outside the panel is a silent no-op: PixelWrite leaves FB, and SET_PIXEL answers OK with FB unchanged. -/
def Obligations.OutOfBoundsWritesAreSilentNoOps : Prop :=
  (∀ (px py : Int) (on : Bool) (fb : Memory), ¬ (0 ≤ px ∧ px < 128 ∧ 0 ≤ py ∧ py < 64) → pixelWrite px py on fb = fb) ∧
    ∀ (s : State) (x y : Word) (on : Bool), s.cstate = .ready → ¬ inLogical s.cfgOrient x.toInt y.toInt →
      exec (.setPixel x y on) s =
        .next { s with
          respCode := .ok, respData := 0#16, responses := s.responses ++ [⟨s.requester, .ok, 0#16⟩], busy := false }

/-! ## The drawing operations: completion, result and frame -/

/-- R163, R109: SET_PIXEL, PSET and PCLR in Ready complete with OK; the logical pixel `(x, y)`, if it is on the panel, takes the value,
every other keeps its own; only the byte at the pixel's index changes; nothing else of the state changes. -/
def Obligations.SetPixelSetsItsPixel : Prop :=
  ∀ (s : State) (x y : Word) (on : Bool), s.cstate = .ready → s.fb.fbWf →
    ∃ fb' : Memory,
      (∀ i ∈ [Instr.setPixel x y on, if on then Instr.pset x y else Instr.pclr x y],
        exec i s =
          .next { s with
            fb := fb', respCode := .ok, respData := 0#16,
            responses := s.responses ++ [⟨s.requester, .ok, 0#16⟩], busy := false }) ∧
      fb'.fbWf ∧
      (∀ u v : Int, inLogical s.cfgOrient u v →
        logicalPixelAt s.cfgOrient fb' u v =
          if u = x.toInt ∧ v = y.toInt then on else logicalPixelAt s.cfgOrient s.fb u v) ∧
      ∀ a : Nat,
        a ≠ pixelPos (rot s.cfgOrient x.toInt y.toInt).1 (rot s.cfgOrient x.toInt y.toInt).2 →
        fb'.read a = s.fb.read a

/-- R143, R147: CLEAR in Ready completes with OK and leaves every FB byte 0x00, whatever the orientation; nothing else of the state
changes. -/
def Obligations.ClearZeroesEveryByte : Prop :=
  ∀ s : State, s.cstate = .ready →
    ∃ fb' : Memory,
      exec .clear s =
        .next { s with
          fb := fb', respCode := .ok, respData := 0#16,
          responses := s.responses ++ [⟨s.requester, .ok, 0#16⟩], busy := false } ∧
      fb'.fbWf ∧ ∀ a : Nat, fb'.read a = 0x00#8

/-- R182, R109: CLEAR_RECT, FILL_RECT and ERASE_RECT in Ready complete with OK; a logical pixel of the panel inside the rectangle takes the
value, every other keeps its own; a byte that holds no pixel of the rectangle reads as before; nothing else of the state changes. -/
def Obligations.ClearRectWritesTheClippedRectangle : Prop :=
  ∀ (s : State) (x y w h : Word) (on : Bool), s.cstate = .ready → s.fb.fbWf →
    ∃ fb' : Memory,
      (∀ i ∈ [Instr.clearRect x y w h on, if on then Instr.fillRect x y w h else Instr.eraseRect x y w h],
        exec i s =
          .next { s with
            fb := fb', respCode := .ok, respData := 0#16,
            responses := s.responses ++ [⟨s.requester, .ok, 0#16⟩], busy := false }) ∧
      fb'.fbWf ∧
      (∀ u v : Int, inLogical s.cfgOrient u v →
        logicalPixelAt s.cfgOrient fb' u v =
          if x.toInt ≤ u ∧ u < x.toInt + w.toInt ∧ y.toInt ≤ v ∧ v < y.toInt + h.toInt then on
          else logicalPixelAt s.cfgOrient s.fb u v) ∧
      ∀ a : Nat,
        (∀ u v : Int, inLogical s.cfgOrient u v →
          x.toInt ≤ u ∧ u < x.toInt + w.toInt ∧ y.toInt ≤ v ∧ v < y.toInt + h.toInt →
          a ≠ pixelPos (rot s.cfgOrient u v).1 (rot s.cfgOrient u v).2) →
        fb'.read a = s.fb.read a

/-- R181, R180: what CLEAR_RECT leaves in FB is what the rule's loops of pixel writes leave, for every rectangle. -/
def Obligations.ClearRectIsTheLoopsOfItsRule : Prop :=
  ∀ (s : State) (x y w h : Word) (on : Bool), s.cstate = .ready → s.fb.fbWf →
    exec (.clearRect x y w h on) s =
      .next { s with
        fb := rectangleLoops s.cfgOrient x.toInt y.toInt w.toInt h.toInt on s.fb, respCode := .ok, respData := 0#16,
        responses := s.responses ++ [⟨s.requester, .ok, 0#16⟩], busy := false }

/-- R186, R184: DRAW_IMAGE in Ready completes with OK; the logical pixel `(x + col, y + row)` of the panel takes the bitmap's pixel `(col, row)`,
which is bit `7 - (i mod 8)` of `IMG[i div 8]` with `i = row * LW + col`; every other pixel keeps its own; a byte that holds no
pixel of the bitmap's place reads as before; nothing else of the state changes. -/
def Obligations.DrawImageCopiesTheBitmap : Prop :=
  ∀ (s : State) (img : Image) (x y : Word), s.cstate = .ready → s.fb.fbWf →
    ∃ fb' : Memory,
      exec (.drawImage img x y) s =
        .next { s with
          fb := fb', respCode := .ok, respData := 0#16,
          responses := s.responses ++ [⟨s.requester, .ok, 0#16⟩], busy := false } ∧
      fb'.fbWf ∧
      (∀ col row : Nat, col < logicalWidth s.cfgOrient → row < logicalHeight s.cfgOrient →
        inLogical s.cfgOrient (x.toInt + col) (y.toInt + row) →
        logicalPixelAt s.cfgOrient fb' (x.toInt + col) (y.toInt + row) =
          (imgByte img ((row * logicalWidth s.cfgOrient + col) / 8)).getLsbD
            (7 - (row * logicalWidth s.cfgOrient + col) % 8)) ∧
      (∀ u v : Int, inLogical s.cfgOrient u v →
        (u < x.toInt ∨ x.toInt + logicalWidth s.cfgOrient ≤ u ∨ v < y.toInt ∨ y.toInt + logicalHeight s.cfgOrient ≤ v) →
        logicalPixelAt s.cfgOrient fb' u v = logicalPixelAt s.cfgOrient s.fb u v) ∧
      ∀ a : Nat,
        (∀ u v : Int, inLogical s.cfgOrient u v →
          x.toInt ≤ u ∧ u < x.toInt + logicalWidth s.cfgOrient ∧ y.toInt ≤ v ∧ v < y.toInt + logicalHeight s.cfgOrient →
          a ≠ pixelPos (rot s.cfgOrient u v).1 (rot s.cfgOrient u v).2) →
        fb'.read a = s.fb.read a

/-- R186, R180: what DRAW_IMAGE leaves in FB is what the rule's loops of pixel writes leave. -/
def Obligations.DrawImageIsTheLoopsOfItsRule : Prop :=
  ∀ (s : State) (img : Image) (x y : Word), s.cstate = .ready → s.fb.fbWf →
    exec (.drawImage img x y) s =
      .next { s with
        fb := imageLoops s.cfgOrient img x.toInt y.toInt s.fb, respCode := .ok, respData := 0#16,
        responses := s.responses ++ [⟨s.requester, .ok, 0#16⟩], busy := false }

/-- R187: after `DRAW_IMAGE img, 0, 0` the logical pixel `(col, row)` equals bitmap pixel `(col, row)` in every orientation; at 0° `FB[c + 128p]`
bit `b` equals bitmap bit `(c, 8p + b)`. -/
def Obligations.ImageLaw : Prop :=
  ∀ (s : State) (img : Image), s.cstate = .ready → s.fb.fbWf →
    ∃ t, exec (.drawImage img 0#16 0#16) s = .next t ∧
      (∀ col row : Nat, col < logicalWidth s.cfgOrient → row < logicalHeight s.cfgOrient →
        logicalPixelAt s.cfgOrient t.fb col row = imgBit img (row * logicalWidth s.cfgOrient + col)) ∧
      (s.cfgOrient = .deg0 → ∀ c p b : Nat, c < 128 → p < 8 → b < 8 →
        (t.fb.read (c + 128 * p)).getLsbD b = imgBit img ((8 * p + b) * 128 + c))

/-- R166, R167, R49: GET_WIDTH and GET_HEIGHT answer the logical dimensions in every accepting state, and change no state but the response
and BUSY. -/
def Obligations.DimensionQueriesAnswerTheLogicalPanel : Prop :=
  ∀ s : State, s.cstate ∈ [.ready, .closed, .configFailed] →
    exec .getWidth s =
      .next { s with
        respCode := .ok, respData := if s.cfgOrient = .deg0 ∨ s.cfgOrient = .deg180 then 128#16 else 64#16,
        responses := s.responses ++
          [⟨s.requester, .ok, if s.cfgOrient = .deg0 ∨ s.cfgOrient = .deg180 then 128#16 else 64#16⟩],
        busy := false } ∧
    exec .getHeight s =
      .next { s with
        respCode := .ok, respData := if s.cfgOrient = .deg0 ∨ s.cfgOrient = .deg180 then 64#16 else 128#16,
        responses := s.responses ++
          [⟨s.requester, .ok, if s.cfgOrient = .deg0 ∨ s.cfgOrient = .deg180 then 64#16 else 128#16⟩],
        busy := false }

/-! ## Bus commands -/

/-- R110, R116 to R136: what a bus command sends is its encoding, one Cmd transaction a byte. -/
def Obligations.BusCommandsSendTheirEncoding : Prop :=
  ∀ (i : Instr) (bytes : List Byte) (s : State), encode i = .command bytes → exec i s = emitCommand bytes s

/-- R116, R120, R123, R124, R129, R130, R131, R134, R135, R136: a command of one byte, while a sequence runs and the transport answers with success, is
one write of that byte to register 0x00; nothing else of the state changes. -/
def Obligations.OneByteCommandsComplete : Prop :=
  ∀ (s : State) (rest : List Answer) (l : BitVec 6) (r d : BitVec 1) (p : BitVec 3) (c : BitVec 4),
    s.sequenceRuns = true → s.answers = .success :: rest →
    ∀ e ∈ [(Instr.displayOff, 0xAE#8), (.setStartLine l, 0x40#8 + l.setWidth 8), (.segmentRemap r, 0xA0#8 + r.setWidth 8),
        (.comScanDir d, 0xC0#8 + 8#8 * d.setWidth 8), (.displayResume, 0xA4#8), (.normalDisplay, 0xA6#8),
        (.displayOn, 0xAF#8), (.setPageStart p, 0xB0#8 + p.setWidth 8), (.setColLow c, c.setWidth 8),
        (.setColHigh c, 0x10#8 + c.setWidth 8)],
      exec e.1 s =
        .next { s with
          trace := s.trace ++ [.transaction (.writeRegister 0x00#8 e.2) (some .success)], answers := rest,
          seqK := s.seqK + 1 }

/-- R117, R118, R119, R121, R122, R125, R126, R127, R128: a command of two bytes, while a sequence runs and the transport answers both with success, is a write
of its opcode and a write of its argument to register 0x00; nothing else of the state changes. -/
def Obligations.TwoByteCommandsComplete : Prop :=
  ∀ (s : State) (rest : List Answer) (a : Byte),
    s.sequenceRuns = true → s.answers = .success :: .success :: rest →
    ∀ e ∈ [(Instr.setClockDiv a, 0xD5#8), (.setMultiplex a, 0xA8#8), (.setDisplayOffset a, 0xD3#8), (.chargePump a, 0x8D#8),
        (.setMemoryMode a, 0x20#8), (.setComPins a, 0xDA#8), (.setContrast a, 0x81#8), (.setPrecharge a, 0xD9#8),
        (.setVcomh a, 0xDB#8)],
      exec e.1 s =
        .next { s with
          trace := s.trace ++
            [.transaction (.writeRegister 0x00#8 e.2) (some .success),
              .transaction (.writeRegister 0x00#8 a) (some .success)],
          answers := rest, seqK := s.seqK + 2 }

/-- R132, R133: the range commands send opcode, start and end, in that order; nothing else of the state changes. -/
def Obligations.RangeCommandsComplete : Prop :=
  ∀ (s : State) (rest : List Answer) (a b : Byte),
    s.sequenceRuns = true → s.answers = .success :: .success :: .success :: rest →
    ∀ e ∈ [(Instr.setColumnRange a b, 0x21#8), (.setPageRange a b, 0x22#8)],
      exec e.1 s =
        .next { s with
          trace := s.trace ++
            [.transaction (.writeRegister 0x00#8 e.2) (some .success),
              .transaction (.writeRegister 0x00#8 a) (some .success),
              .transaction (.writeRegister 0x00#8 b) (some .success)],
          answers := rest, seqK := s.seqK + 3 }

/-- R112: a data byte is one write of the byte, unchanged, to register 0x40; nothing else of the state changes. -/
def Obligations.DataByteIsSentUnchanged : Prop :=
  ∀ (s : State) (rest : List Answer) (d : Byte),
    s.sequenceRuns = true → s.answers = .success :: rest →
    exec (.data d) s =
      .next { s with
        trace := s.trace ++ [.transaction (.writeRegister 0x40#8 d) (some .success)], answers := rest,
        seqK := s.seqK + 1 }

/-! ## Failures, faults and stuck states -/

/-- R215: an I/O error during init, at any transaction of the next item: the sequence stops there, the controller is ConfigFailed, the
construction status is CONFIG_FAILURE, BUSY is cleared, TXH stays, no release is issued. That a step issues one item, and that SEQ_K counts
the failing transaction, are the model's (log 1, log 17). -/
def Obligations.InitFailureEndsInConfigFailed : Prop :=
  ∀ (s : State) (item : SeqItem) (more : List SeqItem) (us ws : List Transaction) (t : Transaction) (rest : List Answer),
    s.cstate = .initializing → s.busy = true → s.waiting = false → s.txh = true → SeqItemOk item →
    s.seq = item :: more → itemTransactions item = us ++ t :: ws →
    s.answers = List.replicate us.length .success ++ .failure :: rest →
    step s =
      .next { s with
        cstate := .configFailed, seq := [], answers := rest, seqK := s.seqK + us.length + 1,
        trace := s.trace ++ succeeded us ++ [.transaction t (some .failure)],
        respCode := .configFailure, respData := 0#16,
        responses := s.responses ++ [⟨s.requester, .configFailure, 0#16⟩], busy := false }

/-- R309, R212: a transaction of the running sequence that the transport never answers: it stands unanswered in the trace, the sequence does not
advance, BUSY stays 1, the requests on the port stay there, and the FBC has no further step; and the same of an acquisition, in
Uninitialized. The unanswered event and the named fault are how the model writes it (log 2, log 9). -/
def Obligations.UnansweredTransportLeavesTheFbcStuck : Prop :=
  (∀ (s : State) (item : SeqItem) (more : List SeqItem) (us ws : List Transaction) (t : Transaction),
    s.sequenceRuns = true → s.waiting = false → SeqItemOk item →
    s.seq = item :: more → itemTransactions item = us ++ t :: ws →
    s.answers = List.replicate us.length .success →
    ∃ s', step s = .next s' ∧ s'.busy = true ∧ s'.cstate = s.cstate ∧ s'.port = s.port ∧
      s'.seqK = s.seqK + us.length ∧ s'.responses = s.responses ∧
      s'.trace = s.trace ++ succeeded us ++ [.transaction t none] ∧
      ∀ n, run (n + 1) s' = .fault .transportNeverAnswers) ∧
  ∀ s : State, s.cstate = .uninitialized → s.busy = true → s.waiting = false → s.answers = [] →
    step s = .next { s with trace := s.trace ++ [.acquire s.cfgBus s.cfgAddr none], waiting := true } ∧
      ∀ n, run (n + 2) s = .fault .transportNeverAnswers

/-- R305, R306: outside Ready every drawing operation and UPDATE, accepted in Closed or ConfigFailed, records NOT_READY and nothing else: no
response, no transaction, BUSY cleared. -/
def Obligations.DrawingOutsideReadyRecordsNotReady : Prop :=
  ∀ (s : State) (x y w h : Word) (on : Bool) (img : Image), s.cstate ∈ [.closed, .configFailed] →
    ∀ i ∈ [Instr.clear, .setPixel x y on, .clearRect x y w h on, .drawImage img x y, .update, .pset x y, .pclr x y,
        .fillRect x y w h, .eraseRect x y w h],
      exec i s = .next { s with fault := s.fault ||| 0b01#2, busy := false }

/-- R106, R305, R308: an accepted request that spells no operation records ILLEGAL_OP, whatever the controller state, and changes nothing else of what
acceptance left (the latches: log 25): no response, no transaction, BUSY cleared. -/
def Obligations.IllegalRequestRecordsIllegalOp : Prop :=
  ∀ (s s' : State) (r : Request), s.busy = false → s.waiting = false → accept s = some (r, s') →
    (r.req.toNat % 256 = 0 ∨ 9 ≤ r.req.toNat % 256 ∨ 512 ≤ r.req.toNat) →
    step s = .next { s' with fault := s'.fault ||| 0b10#2, busy := false }

/-- R44, R305: a fault bit is never cleared. -/
def Obligations.FaultBitsAreSticky : Prop :=
  ∀ s t : State, step s = .next t → s.fault &&& t.fault = s.fault

/-! ## Construction -/

/-- R52, R211, R340: what reset leaves, for the elements the spec gives a value. -/
def Obligations.ResetLeavesTheSpecsValues : Prop :=
  ∀ c : ConfigInput,
    (State.resetWith c).cfgOrient = c.orient ∧ (State.resetWith c).cfgAmode = c.amode ∧
    (State.resetWith c).cfgAddr = c.addr ∧ (State.resetWith c).cfgBus = c.bus ∧
    (∀ a, (State.resetWith c).fb.read a = 0x00#8) ∧ (State.resetWith c).cstate = .uninitialized ∧
    (State.resetWith c).txh = false ∧ (State.resetWith c).log = 0#17 ∧ (State.resetWith c).fault = 0#2 ∧
    (State.resetWith c).seqK = 0 ∧ (State.resetWith c).busy = true ∧
    State.reset.cfgOrient = .deg0 ∧ State.reset.cfgAmode = .horizontal ∧ State.reset.cfgAddr = 0x3C#8

/-- R212 to R216, R53: construction with a transport that answers the acquisition and the 25 init transactions with success ends in Ready: its trace is the
acquisition and the 25 bytes of R214 on register 0x00, its status OK; FB, LOG and FAULT are untouched. The number of steps is the model's
granularity (log 1). -/
def Obligations.ConstructionSucceeds : Prop :=
  ∀ (c : ConfigInput) (p : Params) (port : List Waiting) (rest : List Answer),
    run 18 { State.resetWith c with
        params := p, port := port, answers := List.replicate 26 .success ++ rest } =
      .next { State.resetWith c with
        params := p, port := port, answers := rest,
        cstate := .ready, txh := true, busy := false, seqK := 25,
        respCode := .ok, respData := 0#16, responses := [⟨none, .ok, 0#16⟩],
        trace := .acquire c.bus c.addr (some .success) ::
          succeeded ((initBytes p c.amode).map fun b => .writeRegister 0x00#8 b) }

/-- R212, R215, R53, R310: construction whose acquisition fails ends in ConfigFailed with no transaction issued and TXH 0, and construction whose init
transaction `k` fails ends there with exactly transactions 0 to `k` issued and TXH 1; the status is CONFIG_FAILURE. SEQ_K counts the failing
transaction (log 17). -/
def Obligations.ConstructionFailsPrecisely : Prop :=
  ∀ (c : ConfigInput) (p : Params) (port : List Waiting) (rest : List Answer),
    step { State.resetWith c with params := p, port := port, answers := .failure :: rest } =
      .next { State.resetWith c with
        params := p, port := port, answers := rest, cstate := .configFailed, busy := false,
        respCode := .configFailure, respData := 0#16, responses := [⟨none, .configFailure, 0#16⟩],
        trace := [.acquire c.bus c.addr (some .failure)] } ∧
    ∀ k < 25,
      ∃ n b, (initBytes p c.amode)[k]? = some b ∧
        run n { State.resetWith c with
            params := p, port := port, answers := List.replicate (k + 1) .success ++ .failure :: rest } =
          .next { State.resetWith c with
            params := p, port := port, answers := rest,
            cstate := .configFailed, txh := true, busy := false, seqK := k + 1,
            respCode := .configFailure, respData := 0#16, responses := [⟨none, .configFailure, 0#16⟩],
            trace := .acquire c.bus c.addr (some .success) ::
              (succeeded (((initBytes p c.amode).take k).map fun b => .writeRegister 0x00#8 b) ++
                [.transaction (.writeRegister 0x00#8 b) (some .failure)]) }

/-! ## Refresh -/

/-- R244: the Horizontal sequence has exactly 70 transactions: 6 command-register writes (the column range, the page range), and then 64 data blocks, block `c`
at ordinal `6 + c`. -/
def Obligations.HorizontalRefreshHasSeventyTransactions : Prop :=
  ∀ (tx : PageTx) (fb : Memory),
    (refreshIssues .horizontal tx fb).length = 70 ∧
    (∀ k < 6,
      (refreshIssues .horizontal tx fb)[k]? =
        ([0x21#8, 0x00#8, 0x7F#8, 0x22#8, 0x00#8, 0x07#8].map (Transaction.writeRegister 0x00#8))[k]?) ∧
    ∀ c < 64,
      (refreshIssues .horizontal tx fb)[6 + c]? =
        some (Transaction.writeBlock 0x40#8 ((List.range 16).map fun j => fb.read (16 * c + j)))

/-- R249: the Page sequence has 1048 transactions one byte at a time (page `p` at ordinal `131p`) and 32 by blocks (page `p` at ordinal `4p`): each page
select, 2 column resets, and the 128 bytes of the page. -/
def Obligations.PageRefreshHasItsTransactionCounts : Prop :=
  ∀ fb : Memory,
    (refreshIssues .page .single fb).length = 1048 ∧
    (refreshIssues .page .block fb).length = 32 ∧
    (∀ p < 8, ∀ c < 128,
      (refreshIssues .page .single fb)[131 * p]? =
        some (Transaction.writeRegister 0x00#8 (0xB0#8 + BitVec.ofNat 8 p)) ∧
      (refreshIssues .page .single fb)[131 * p + 1]? = some (Transaction.writeRegister 0x00#8 0x00#8) ∧
      (refreshIssues .page .single fb)[131 * p + 2]? = some (Transaction.writeRegister 0x00#8 0x10#8) ∧
      (refreshIssues .page .single fb)[131 * p + 3 + c]? =
        some (Transaction.writeRegister 0x40#8 (fb.read (128 * p + c)))) ∧
    ∀ p < 8,
      (refreshIssues .page .block fb)[4 * p]? =
        some (Transaction.writeRegister 0x00#8 (0xB0#8 + BitVec.ofNat 8 p)) ∧
      (refreshIssues .page .block fb)[4 * p + 1]? = some (Transaction.writeRegister 0x00#8 0x00#8) ∧
      (refreshIssues .page .block fb)[4 * p + 2]? = some (Transaction.writeRegister 0x00#8 0x10#8) ∧
      (refreshIssues .page .block fb)[4 * p + 3]? =
        some (Transaction.writeBlock 0x40#8 ((List.range 128).map fun c => fb.read (128 * p + c)))

/-- R251: in both modes and for both values of P_PAGE_TX the data bytes of a complete refresh, in order, are `FB[0], ..., FB[1023]`. -/
def Obligations.DataStreamLaw : Prop :=
  ∀ (m : AMode) (tx : PageTx) (fb : Memory),
    dataBytes (refreshIssues m tx fb) = (List.range 1024).map fun a => fb.read a

/-- R240, R241: UPDATE in Ready completes its own part at once: SEQ_K is 0 and the refresh of the configured mode is what is left to issue; nothing
else of the state changes. The sequencer then issues it (UpdateRefreshesThePanel; log 1). -/
def Obligations.UpdateStartsItsRefresh : Prop :=
  ∀ s : State, s.cstate = .ready →
    ∃ items : List SeqItem,
      exec .update s = .next { s with seqK := 0, seq := items } ∧
      items.flatMap itemTransactions = refreshTransactions s.cfgAmode s.params.pageTx s.fb

/-- R241: UPDATE, with a transport that answers its whole refresh with success, ends with response OK in Ready: the trace has grown by exactly the
transactions of the refresh, and FB is unchanged. -/
def Obligations.UpdateRefreshesThePanel : Prop :=
  ∀ (s : State) (rest : List Answer), s.cstate = .ready → s.busy = true → s.waiting = false → s.txh = true →
    s.answers = List.replicate (refreshTransactions s.cfgAmode s.params.pageTx s.fb).length .success ++ rest →
    ∃ t n, exec .update s = .next t ∧
      run n t =
        .next { s with
          seqK := (refreshTransactions s.cfgAmode s.params.pageTx s.fb).length, seq := [], answers := rest,
          trace := s.trace ++ succeeded (refreshTransactions s.cfgAmode s.params.pageTx s.fb),
          respCode := .ok, respData := 0#16, responses := s.responses ++ [⟨s.requester, .ok, 0#16⟩], busy := false }

/-- R241, R253, R303: UPDATE whose transaction `k` fails has issued transactions 0 to `k` and no later one, answers IO_ERROR, and stays Ready with FB
unchanged. SEQ_K counts the failing transaction (log 17). -/
def Obligations.FailedUpdateStopsAtItsTransaction : Prop :=
  ∀ (s : State) (us ws : List Transaction) (u : Transaction) (rest : List Answer),
    s.cstate = .ready → s.busy = true → s.waiting = false → s.txh = true →
    refreshTransactions s.cfgAmode s.params.pageTx s.fb = us ++ u :: ws →
    s.answers = List.replicate us.length .success ++ .failure :: rest →
    ∃ t n, exec .update s = .next t ∧
      run n t =
        .next { s with
          seqK := us.length + 1, seq := [], answers := rest,
          trace := s.trace ++ succeeded us ++ [.transaction u (some .failure)],
          respCode := .ioError, respData := 0#16,
          responses := s.responses ++ [⟨s.requester, .ioError, 0#16⟩], busy := false }

/-! ## Shutdown -/

/-- R271, R272, R273: SHUTDOWN in Ready completes its own part at once: ShuttingDown, every FB byte 0x00, and the final refresh of that FB is what
is left to issue; nothing else of the state changes. The sequencer then issues it (ShutdownClearsFlushesAndReleases; log 1). -/
def Obligations.ShutdownStartsItsFinalRefresh : Prop :=
  ∀ s : State, s.cstate = .ready →
    ∃ (fb' : Memory) (items : List SeqItem),
      exec .shutdown s = .next { s with cstate := .shuttingDown, fb := fb', seqK := 0, seq := items } ∧
      fb'.fbWf ∧ (∀ a, fb'.read a = 0x00#8) ∧
      items.flatMap itemTransactions = refreshTransactions s.cfgAmode s.params.pageTx fb'

/-- R271, R275, R276: SHUTDOWN in Ready, with a transport that answers the final refresh with success, ends in Closed with response OK: FB is all 0x00, the
trace has grown by the refresh of that FB and the release, TXH is 0, and LOG is unchanged. -/
def Obligations.ShutdownClearsFlushesAndReleases : Prop :=
  ∀ (s : State) (rest : List Answer), s.cstate = .ready → s.busy = true → s.waiting = false → s.txh = true →
    s.answers = List.replicate (refreshTransactions s.cfgAmode s.params.pageTx []).length .success ++ rest →
    ∃ t n, exec .shutdown s = .next t ∧
      run n t =
        .next { s with
          fb := [], cstate := .closed, txh := false,
          seqK := (refreshTransactions s.cfgAmode s.params.pageTx []).length, seq := [], answers := rest,
          trace := s.trace ++ succeeded (refreshTransactions s.cfgAmode s.params.pageTx []) ++ [.release],
          respCode := .ok, respData := 0#16, responses := s.responses ++ [⟨s.requester, .ok, 0#16⟩], busy := false }

/-- R271, R274, R302: SHUTDOWN whose final refresh fails at transaction `k` ends in Closed all the same, with response OK, LOG = {k, 1}, transactions 0 to
`k` issued, and the transport released. SEQ_K counts the failing transaction (log 17). -/
def Obligations.ShutdownSwallowsAFailedRefresh : Prop :=
  ∀ (s : State) (us ws : List Transaction) (u : Transaction) (rest : List Answer),
    s.cstate = .ready → s.busy = true → s.waiting = false → s.txh = true →
    refreshTransactions s.cfgAmode s.params.pageTx [] = us ++ u :: ws →
    s.answers = List.replicate us.length .success ++ .failure :: rest →
    ∃ t n, exec .shutdown s = .next t ∧
      run n t =
        .next { s with
          fb := [], cstate := .closed, txh := false, log := BitVec.ofNat 16 us.length ++ 1#1,
          seqK := us.length + 1, seq := [], answers := rest,
          trace := s.trace ++ succeeded us ++ [.transaction u (some .failure), .release],
          respCode := .ok, respData := 0#16, responses := s.responses ++ [⟨s.requester, .ok, 0#16⟩], busy := false }

/-- R277: SHUTDOWN after Closed is a no-op with response OK, and the same holds in ConfigFailed. -/
def Obligations.ShutdownAfterClosedIsANoOp : Prop :=
  ∀ s : State, s.cstate ∈ [.closed, .configFailed] →
    exec .shutdown s =
      .next { s with
        respCode := .ok, respData := 0#16, responses := s.responses ++ [⟨s.requester, .ok, 0#16⟩], busy := false }

/-- R276, R278: Closed is final, and however many requests follow, SHUTDOWN among them, no clear, transaction or release happens again. -/
def Obligations.ClosedIsFinal : Prop :=
  ∀ (n : Nat) (s t : State), Inv s → s.cstate = .closed → run n s = .next t →
    t.cstate = .closed ∧ t.trace = s.trace ∧ t.fb = s.fb ∧ t.txh = false ∧ t.log = s.log

/-! ## The whole machine -/

/-- R52: the invariant holds at reset, for every configuration. -/
def Obligations.ResetHasTheInvariant : Prop := ∀ c : ConfigInput, Inv (State.resetWith c)

/-- R36, R42, R43, R46, R74, R111, R309: the invariant is kept by every step: FB is a canonical framebuffer of indices below 1024; TXH, BUSY
and the sequence have values that go with the controller state; the sequence holds only well-formed bus commands, data bytes and
blocks of 16 or 128 bytes; only a busy FBC waits for an answer; LOG is 0 where SDERR is. -/
def Obligations.EveryStepKeepsTheInvariant : Prop := ∀ s t : State, Inv s → step s = .next t → Inv t

/-- R41: CSTATE moves only along the legal transitions. -/
def Obligations.ControllerStateMovesOnlyLegally : Prop :=
  ∀ s t : State, Inv s → step s = .next t → t.cstate = s.cstate ∨ legalTransition s.cstate t.cstate = true

/-- R35, R341: the configuration registers, and the model's parameters, never change. -/
def Obligations.ConfigurationNeverChanges : Prop :=
  ∀ s t : State, step s = .next t →
    t.cfgBus = s.cfgBus ∧ t.cfgAddr = s.cfgAddr ∧ t.cfgOrient = s.cfgOrient ∧ t.cfgAmode = s.cfgAmode ∧
      t.params = s.params

/-- R42, R75: the trace only grows, and it grows by a transaction only while TXH is 1. -/
def Obligations.TransactionsOnlyWhileTheTransportIsHeld : Prop :=
  ∀ s t : State, step s = .next t →
    ∃ new : List Event, t.trace = s.trace ++ new ∧
      ∀ u a, .transaction u a ∈ new → s.txh = true

/-- R74: the FBC issues only writes of one byte to register 0x00 or 0x40, and blocks of 16 or 128 bytes to register 0x40. -/
def Obligations.OnlyThreeKindsOfTransaction : Prop :=
  ∀ s t : State, Inv s → step s = .next t →
    ∃ new : List Event, t.trace = s.trace ++ new ∧
      ∀ u a, .transaction u a ∈ new →
        (∃ b, u = .writeRegister 0x00#8 b) ∨ (∃ b, u = .writeRegister 0x40#8 b) ∨
          ∃ bs, u = .writeBlock 0x40#8 bs ∧ (bs.length = 16 ∨ bs.length = 128)

/-- R46, R104: while BUSY is 1 no request is accepted: the port, the requester and the operand latches stay as they are. -/
def Obligations.NoRequestIsAcceptedWhileBusy : Prop :=
  ∀ s t : State, Inv s → s.busy = true → step s = .next t →
    t.port = s.port ∧ t.requester = s.requester ∧ t.op = s.op ∧ t.on = s.on ∧ t.x = s.x ∧ t.y = s.y ∧ t.w = s.w ∧
      t.h = s.h ∧ t.img = s.img

/-- R88: FB does not change while a sequence runs; so it makes no difference that the model takes a refresh's bytes from FB at its start
(log 8). -/
def Obligations.RefreshReadsAConsistentSnapshot : Prop :=
  ∀ s t : State, Inv s → s.busy = true → step s = .next t → t.fb = s.fb

/-- R43, R274: LOG is written only by SHUTDOWN's failed final refresh, with the ordinal of the transaction that failed. That SEQ_K (R45) is one
more afterwards, since it counts the failing transaction, is the model's reading (log 17). -/
def Obligations.LogIsWrittenOnlyByAFailedFinalRefresh : Prop :=
  ∀ s t : State, Inv s → step s = .next t → t.log ≠ s.log →
    s.cstate = .shuttingDown ∧ ∃ k, t.seqK = k + 1 ∧ t.log = BitVec.ofNat 16 k ++ 1#1 ∧
      ∃ us u, t.trace = s.trace ++ succeeded us ++ [.transaction u (some .failure)] ∧ k = s.seqK + us.length

/-- R301, R305, R306, R107: a step of a busy FBC that ends its operation gives exactly one response, which the response registers hold, to the
current requester, and a step that leaves it busy gives none. A step of an idle FBC that accepts a request gives none and sets ILLEGAL_OP where
the request spells no operation; gives none and sets NOT_READY where the operation is not legal in this controller state; and otherwise sets no
fault bit and gives its one response to the request's caller, unless the operation is UPDATE or SHUTDOWN in Ready, which stay busy and respond in
a later step (log 1). With no request to accept, nothing is given. -/
def Obligations.EveryOperationGivesOneResponse : Prop :=
  ∀ s t : State, Inv s → step s = .next t →
    (s.busy = true →
      (t.busy = false → t.responses = s.responses ++ [⟨s.requester, t.respCode, t.respData⟩]) ∧
      (t.busy = true → t.responses = s.responses)) ∧
    (s.busy = false → ∀ (r : Request) (s' : State), accept s = some (r, s') →
      (∀ e, decodeRequest r = .error e →
        t.busy = false ∧ t.responses = s.responses ∧ t.fault = s.fault ||| 0b10#2) ∧
      ∀ i, decodeRequest r = .ok i →
        (s.cstate ≠ .ready → i ∉ [.shutdown, .getWidth, .getHeight] →
          t.busy = false ∧ t.responses = s.responses ∧ t.fault = s.fault ||| 0b01#2) ∧
        (s.cstate = .ready ∨ i ∈ [.shutdown, .getWidth, .getHeight] →
          t.fault = s.fault ∧
          (t.busy = true ↔ s.cstate = .ready ∧ i ∈ [.update, .shutdown]) ∧
          (t.busy = true → t.responses = s.responses) ∧
          (t.busy = false → t.responses = s.responses ++ [⟨s'.requester, t.respCode, t.respData⟩]))) ∧
    (s.busy = false → accept s = none → t.responses = s.responses ∧ t.fault = s.fault)

/-- R104, R85: an idle FBC with requests waiting accepts one, the oldest of its caller; BUSY is set and the request's fields are latched, IMG for
DRAW_IMAGE; every other request keeps its place. Which caller is served is a free value (log 3). -/
def Obligations.AcceptanceTakesACallersOldestRequest : Prop :=
  ∀ s : State, s.port ≠ [] →
    ∃ (before after : List Waiting) (q : Waiting) (s' : State),
      s.port = before ++ q :: after ∧ (∀ p ∈ before, p.caller ≠ q.caller) ∧
      accept s = some (q.request, s') ∧ s'.port = before ++ after ∧
      s'.busy = true ∧ s'.requester = some q.caller ∧
      s'.op = BitVec.ofNat 8 q.request.req.toNat ∧ s'.on = q.request.req.getLsbD 8 ∧
      s'.x = q.request.x ∧ s'.y = q.request.y ∧ s'.w = q.request.w ∧ s'.h = q.request.h ∧
      s'.img = (if q.request.req.toNat % 256 = 4 then q.request.img else s.img) ∧
      s'.fb = s.fb ∧ s'.cstate = s.cstate ∧ s'.trace = s.trace ∧ s'.responses = s.responses ∧ s'.fault = s.fault ∧
      s'.log = s.log ∧ s'.txh = s.txh ∧ s'.answers = s.answers ∧ s'.seqK = s.seqK ∧ s'.seq = s.seq

/-- R107, R210: a step runs the decoded instruction: an idle FBC runs the operation of the request it accepts, and a running sequence its next bus
command or data byte, taken off the sequence. -/
def Obligations.StepRunsTheDecodedInstruction : Prop :=
  (∀ (s s' : State) (r : Request) (i : Instr), s.busy = false → s.waiting = false → accept s = some (r, s') →
    decode (.request r) = .ok i → step s = exec i s') ∧
  ∀ (s : State) (ws : Words) (i : Instr) (more : List SeqItem), s.sequenceRuns = true → s.waiting = false →
    decode ws = .ok i → s.seq = .bus i :: more → step s = exec i { s with seq := more }

/-! ## Text layout -/

/-- R196, R202: every request of a centered text without newlines sets a pixel of the logical panel, in the rows of the line and the columns of the
cell of one of its characters, where the cursor stands at `x0` plus the advances before it. -/
def Obligations.CenteredTextStaysInItsCells : Prop :=
  ∀ (o : Orient) (f : Font) (text : List Nat) (y : Int) (on : Bool), f.ok → 0x0A ∉ text →
    ∀ i ∈ drawStringCentered o f text y on,
      ∃ (before after : List Nat) (c : Nat) (u v : Int) (b : Bool),
        text = before ++ c :: after ∧ i = .setPixel (BitVec.ofInt 16 u) (BitVec.ofInt 16 v) b ∧ inLogical o u v ∧
        y ≤ v ∧ v < y + f.fh ∧
        ((logicalWidth o : Int) - f.strw text).tdiv 2 + (before.map f.adv).sum ≤ u ∧
        u < ((logicalWidth o : Int) - f.strw text).tdiv 2 + (before.map f.adv).sum + f.cw c

/-- R196 to R199: drawChar asks for the glyph's pixels where its whole cell lies in the logical panel, and for nothing otherwise; drawString of a
character other than a newline (0x0A) draws that character at the cursor and the rest of its line an advance further right, whether or not the
glyph was drawn; a newline ends a line, and what follows is drawn as a string of its own from the call's `x`, one line height lower; the empty text
draws nothing; drawStringCentered is drawString from the centered column. That a glyph is a list of pixels, each a SET_PIXEL with 16-bit
coordinates, is the model's form (log 20). -/
def Obligations.TextIsDrawnCharacterByCharacterAndLineByLine : Prop :=
  ∀ (o : Orient) (f : Font) (x y : Int) (on : Bool),
    (∀ c : Nat,
      drawChar o f c x y on =
        if 0 ≤ x ∧ x + f.cw c ≤ logicalWidth o ∧ 0 ≤ y ∧ y + f.fh ≤ logicalHeight o then
          (f.glyph c x y on).map fun p => .setPixel (BitVec.ofInt 16 p.1) (BitVec.ofInt 16 p.2.1) p.2.2
        else []) ∧
    drawString o f [] x y on = [] ∧
    (∀ (c : Nat) (text : List Nat), c ≠ 0x0A → 0x0A ∉ text →
      drawString o f (c :: text) x y on = drawChar o f c x y on ++ drawString o f text (x + f.adv c) y on) ∧
    (∀ line text : List Nat, 0x0A ∉ line →
      drawString o f (line ++ 0x0A :: text) x y on =
        drawString o f line x y on ++ drawString o f text x (y + f.fh) on) ∧
    ∀ text : List Nat,
      drawStringCentered o f text y on = drawString o f text (((logicalWidth o : Int) - f.strw text).tdiv 2) y on

/-- R201: `Center(LW, sw)` is `(LW - sw) / 2` truncated toward zero, so `Center(128, 131) = -1` and `Center(128, 11) = 58`. -/
def Obligations.CenterTruncatesTowardZero : Prop :=
  (∀ lw sw : Int, sw ≤ lw → 2 * center lw sw ≤ lw - sw ∧ lw - sw < 2 * center lw sw + 2) ∧
  (∀ lw sw : Int, lw ≤ sw → lw - sw ≤ 2 * center lw sw ∧ 2 * center lw sw - 2 < lw - sw) ∧
  center 128 131 = -1 ∧ center 128 11 = 58

/-! ## Where the model stops or turns away by its own choice -/

/-- R42, R71: outside a running sequence, or with no transport held, a bus command or data byte issues nothing and stops by name; the named
fault is the model's way to say so (log 11). -/
def Obligations.BusCommandsStopOutsideASequence : Prop :=
  ∀ (i : Instr) (s : State), i.isBus = true →
    (s.busy = false ∨ s.txh = false ∨ s.cstate ∈ [.uninitialized, .closed, .configFailed]) →
    exec i s = .fault .transactionOutsideSequence

/-- In Uninitialized, Initializing and ShuttingDown, where no request is accepted, every host operation records NOT_READY and nothing else; that
choice is the model's (log 13). -/
def Obligations.HostOperationsInBusyStatesRecordNotReady : Prop :=
  ∀ (i : Instr) (s : State), i.isBus = false → s.cstate ∈ [.uninitialized, .initializing, .shuttingDown] →
    exec i s = .next { s with fault := s.fault ||| 0b01#2, busy := false }
end

