-- ==== Sys2Proof/Laws/Memory.lean ====
section
/-! SUPPORT. The laws of the framebuffer memory: what a read sees after a write, the canonical form kept, and equality by
reads. -/

namespace Sys2Proof.Machine

@[simp] theorem Memory.read_nil (a : Nat) : Memory.read [] a = Memory.unlisted := rfl

@[simp] theorem Memory.read_cleared (a : Nat) : Memory.cleared.read a = 0x00#8 := rfl

theorem Memory.read_cons (b : Nat) (v : Byte) (m : Memory) (a : Nat) :
    Memory.read ((b, v) :: m) a = if a = b then v else m.read a := rfl

theorem Memory.wf_tail {c : Host.Cell} {m : Memory} (h : Memory.wf (c :: m)) : m.wf :=
  ⟨h.1.of_cons, fun d hd => h.2 d (List.mem_cons_of_mem _ hd)⟩

theorem Memory.lt_of_wf_cons {c d : Host.Cell} {m : Memory} (h : Memory.wf (c :: m)) (hd : d ∈ m) : c.1 < d.1 :=
  (List.pairwise_cons.mp h.1).1 d hd

/-- An index no entry has reads as unlisted. -/
theorem Memory.read_eq_unlisted {m : Memory} {a : Nat} (h : ∀ c ∈ m, c.1 ≠ a) : m.read a = Memory.unlisted := by
  induction m with
  | nil => rfl
  | cons c m ih =>
    obtain ⟨b, v⟩ := c
    have hb : a ≠ b := fun hab => h (b, v) (by simp) hab.symm
    simp only [Memory.read_cons, if_neg hb]
    exact ih fun d hd => h d (List.mem_cons_of_mem _ hd)

/-- In canonical form an index below the first entry reads as unlisted. -/
theorem Memory.read_below {b : Nat} {v : Byte} {m : Memory} {a : Nat} (h : Memory.wf ((b, v) :: m)) (hab : a ≤ b) :
    m.read a = Memory.unlisted :=
  Memory.read_eq_unlisted fun d hd he => by have := Memory.lt_of_wf_cons h hd; simp only at this; omega

theorem Memory.mem_put {m : Memory} {a : Nat} {v : Byte} {c : Host.Cell} (h : c ∈ m.put a v) :
    c = (a, v) ∨ c ∈ m := by
  induction m with
  | nil => simpa [Memory.put] using h
  | cons d m ih =>
    obtain ⟨b, u⟩ := d
    simp only [Memory.put] at h
    split at h
    · simpa using h
    · split at h
      · rcases List.mem_cons.mp h with h | h
        · exact .inl h
        · exact .inr (List.mem_cons_of_mem _ h)
      · rcases List.mem_cons.mp h with h | h
        · exact .inr (by simp [h])
        · exact (ih h).imp id (List.mem_cons_of_mem _)

theorem Memory.mem_remove {m : Memory} {a : Nat} {c : Host.Cell} (h : c ∈ m.remove a) : c ∈ m := by
  induction m with
  | nil => simp [Memory.remove] at h
  | cons d m ih =>
    obtain ⟨b, u⟩ := d
    simp only [Memory.remove] at h
    split at h
    · exact h
    · split at h
      · exact List.mem_cons_of_mem _ h
      · rcases List.mem_cons.mp h with h | h
        · simp [h]
        · exact List.mem_cons_of_mem _ (ih h)

theorem Memory.wf_put {m : Memory} {a : Nat} {v : Byte} (h : m.wf) (hv : v ≠ Memory.unlisted) : (m.put a v).wf := by
  induction m with
  | nil => exact ⟨by simp [Memory.put], by simpa [Memory.put] using hv⟩
  | cons d m ih =>
    obtain ⟨b, u⟩ := d
    have hm := ih (Memory.wf_tail h)
    refine ⟨?_, fun c hc => (Memory.mem_put hc).elim (fun he => by simpa [he] using hv) (h.2 c)⟩
    simp only [Memory.put]
    split
    · refine List.pairwise_cons.mpr ⟨fun c hc => ?_, h.1⟩
      rcases List.mem_cons.mp hc with rfl | hc
      · assumption
      · have := Memory.lt_of_wf_cons h hc; simp only at this ⊢; omega
    · split
      · rename_i hab
        subst hab
        refine List.pairwise_cons.mpr ⟨fun c hc => ?_, (Memory.wf_tail h).1⟩
        have := Memory.lt_of_wf_cons h hc
        exact this
      · refine List.pairwise_cons.mpr ⟨fun c hc => ?_, hm.1⟩
        rcases Memory.mem_put hc with rfl | hc
        · simp only; omega
        · exact Memory.lt_of_wf_cons h hc

theorem Memory.wf_remove {m : Memory} {a : Nat} (h : m.wf) : (m.remove a).wf := by
  induction m with
  | nil => exact h
  | cons d m ih =>
    obtain ⟨b, u⟩ := d
    have hm := ih (Memory.wf_tail h)
    refine ⟨?_, fun c hc => h.2 c (Memory.mem_remove hc)⟩
    simp only [Memory.remove]
    split
    · exact h.1
    · split
      · exact (Memory.wf_tail h).1
      · exact List.pairwise_cons.mpr ⟨fun c hc => Memory.lt_of_wf_cons h (Memory.mem_remove hc), hm.1⟩

/-- A write keeps the canonical form. -/
theorem Memory.wf_write {m : Memory} {a : Nat} {v : Byte} (h : m.wf) : (m.write a v).wf := by
  unfold Memory.write
  split
  · exact Memory.wf_remove h
  · exact Memory.wf_put h ‹_›

/-- A write inside FB keeps a framebuffer. -/
theorem Memory.fbWf_write {m : Memory} {a : Nat} {v : Byte} (h : m.fbWf) (ha : a < 1024) : (m.write a v).fbWf := by
  refine ⟨Memory.wf_write h.1, fun c hc => ?_⟩
  unfold Memory.write at hc
  split at hc
  · exact h.2 c (Memory.mem_remove hc)
  · exact (Memory.mem_put hc).elim (fun he => by simpa [he] using ha) (h.2 c)

theorem Memory.fbWf_cleared : Memory.cleared.fbWf := by
  refine ⟨⟨?_, ?_⟩, ?_⟩ <;> simp [Memory.cleared]

theorem Memory.read_put (m : Memory) (a : Nat) (v : Byte) (i : Nat) :
    (m.put a v).read i = if i = a then v else m.read i := by
  induction m with
  | nil => rfl
  | cons d m ih =>
    obtain ⟨b, u⟩ := d
    simp only [Memory.put]
    split
    · simp only [Memory.read_cons]
    · split
      · rename_i hab
        subst hab
        simp only [Memory.read_cons]
        split <;> rfl
      · simp only [Memory.read_cons, ih]
        split <;> split <;> first | rfl | omega

theorem Memory.read_remove {m : Memory} (h : m.wf) (a i : Nat) :
    (m.remove a).read i = if i = a then Memory.unlisted else m.read i := by
  induction m with
  | nil => simp [Memory.remove]
  | cons d m ih =>
    obtain ⟨b, u⟩ := d
    simp only [Memory.remove]
    split
    · rename_i hab
      split
      · rename_i hi
        have : i ≠ b := by omega
        rw [Memory.read_cons, if_neg this, Memory.read_below h (by omega)]
      · rfl
    · split
      · rename_i hab
        subst hab
        split
        · rename_i hi
          exact Memory.read_below h (by omega)
        · rename_i hi
          simp [Memory.read_cons, hi]
      · simp only [Memory.read_cons, ih (Memory.wf_tail h)]
        split <;> split <;> first | rfl | omega

/-- A read after a write: the value written at that index, the old byte at any other. -/
theorem Memory.read_write {m : Memory} (h : m.wf) (a : Nat) (v : Byte) (i : Nat) :
    (m.write a v).read i = if i = a then v else m.read i := by
  unfold Memory.write
  split
  · rename_i hv
    rw [Memory.read_remove h, hv]
  · exact Memory.read_put m a v i

/-- Canonical memories that read alike are equal. -/
theorem Memory.ext_of_wf {m n : Memory} (hm : m.wf) (hn : n.wf) (h : ∀ i, m.read i = n.read i) : m = n := by
  induction m generalizing n with
  | nil =>
    cases n with
    | nil => rfl
    | cons c n =>
      obtain ⟨b, v⟩ := c
      have := h b
      simp only [Memory.read_nil, Memory.read_cons, if_true] at this
      exact absurd this.symm (hn.2 (b, v) (by simp))
  | cons c m ih =>
    obtain ⟨b, v⟩ := c
    have hv : v ≠ Memory.unlisted := hm.2 (b, v) (by simp)
    cases n with
    | nil =>
      have := h b
      simp only [Memory.read_nil, Memory.read_cons, if_true] at this
      exact absurd this hv
    | cons d n =>
      obtain ⟨b', v'⟩ := d
      have hv' : v' ≠ Memory.unlisted := hn.2 (b', v') (by simp)
      have hb : b = b' := by
        rcases Nat.lt_trichotomy b b' with hlt | heq | hlt
        · have := h b
          rw [Memory.read_cons, if_pos rfl, Memory.read_cons, if_neg (by omega), Memory.read_below hn (by omega)] at this
          exact absurd this hv
        · exact heq
        · have := h b'
          rw [Memory.read_cons, if_neg (by omega), Memory.read_cons, if_pos rfl, Memory.read_below hm (by omega)] at this
          exact absurd this.symm hv'
      subst hb
      have hvv : v = v' := by simpa [Memory.read_cons] using h b
      subst hvv
      congr 1
      refine ih (Memory.wf_tail hm) (Memory.wf_tail hn) fun i => ?_
      by_cases hi : i = b
      · subst hi
        rw [Memory.read_below hm (by omega), Memory.read_below hn (by omega)]
      · simpa [Memory.read_cons, hi] using h i

/-- Past FB a framebuffer lists nothing. -/
theorem Memory.read_of_fbWf {m : Memory} (h : m.fbWf) {i : Nat} (hi : 1024 ≤ i) : m.read i = Memory.unlisted :=
  Memory.read_eq_unlisted fun c hc he => by have := h.2 c hc; omega

/-- Framebuffers with the same 1024 bytes are equal. -/
theorem Memory.ext_of_fbWf {m n : Memory} (hm : m.fbWf) (hn : n.fbWf) (h : ∀ i < 1024, m.read i = n.read i) : m = n :=
  Memory.ext_of_wf hm.1 hn.1 fun i => by
    by_cases hi : i < 1024
    · exact h i hi
    · rw [Memory.read_of_fbWf hm (by omega), Memory.read_of_fbWf hn (by omega)]

/-- The entries `Memory.ofBytes` lists of some indices read as the bytes there. -/
theorem Memory.read_filterMap (f : Nat → Byte) (ks : List Nat) (i : Nat) :
    Memory.read (ks.filterMap fun k => if f k = Memory.unlisted then none else some (k, f k)) i =
      if i ∈ ks then f i else Memory.unlisted := by
  induction ks with
  | nil => rfl
  | cons k ks ih =>
    by_cases hk : f k = Memory.unlisted
    · simp only [List.filterMap_cons, if_pos hk, ih, List.mem_cons]
      by_cases hi : i = k
      · subst hi; simp [hk]
      · simp [hi]
    · simp only [List.filterMap_cons, if_neg hk, Memory.read_cons, ih, List.mem_cons]
      by_cases hi : i = k
      · subst hi; simp
      · simp [hi]

theorem Memory.read_ofBytes (f : Nat → Byte) {i : Nat} (hi : i < 1024) : (Memory.ofBytes f).read i = f i := by
  simp [Memory.ofBytes, Memory.read_filterMap, hi]

theorem Memory.fbWf_ofBytes (f : Nat → Byte) : (Memory.ofBytes f).fbWf := by
  unfold Memory.ofBytes
  refine ⟨⟨?_, ?_⟩, ?_⟩
  · refine List.Pairwise.filterMap _ (fun a b hab c hc d hd => ?_) (List.pairwise_lt_range (n := 1024))
    split at hc <;> split at hd <;> simp_all
    subst hc hd
    exact hab
  · intro c hc
    obtain ⟨k, -, hk⟩ := List.mem_filterMap.mp hc
    split at hk <;> simp_all
    subst hk
    assumption
  · intro c hc
    obtain ⟨k, hk, hc⟩ := List.mem_filterMap.mp hc
    split at hc <;> simp_all
    subst hc
    exact hk

@[simp] theorem getLsbD_byteOfBits (f : Nat → Bool) {b : Nat} (hb : b < 8) : (byteOfBits f).getLsbD b = f b := by
  unfold byteOfBits
  rw [BitVec.getLsbD_ofBoolListLE]
  interval_cases b <;> rfl

@[simp] theorem Memory.length_bytes (m : Memory) (a n : Nat) : (m.bytes a n).length = n := by simp [Memory.bytes]

end Sys2Proof.Machine
end

