-- ==== Sys2Proof/Laws/PerInstr.lean ====
section
/-! SUPPORT. Per instruction: the encoding matches the instruction's row of spec/opcode_table.json. -/

namespace Sys2Proof.Laws.RowMatch

/-- The first word of an instruction: REQ of a request, the opcode byte of a bus command, the data byte. -/
def firstWord : Words → Nat
  | .request r => r.req.toNat
  | .command bytes => (bytes.headD 0#8).toNat
  | .data d => d.toNat

/-- The mask and match of the instruction's row, as spec/opcode_table.json has them. -/
def row : Instr → Nat × Nat
  | .clear => (0xFEFF, 0x0001)
  | .setPixel _ _ _ => (0xFEFF, 0x0002)
  | .clearRect _ _ _ _ _ => (0xFEFF, 0x0003)
  | .drawImage _ _ _ => (0xFEFF, 0x0004)
  | .update => (0xFEFF, 0x0005)
  | .shutdown => (0xFEFF, 0x0006)
  | .getWidth => (0xFEFF, 0x0007)
  | .getHeight => (0xFEFF, 0x0008)
  | .pset _ _ => (0xFFFF, 0x0102)
  | .pclr _ _ => (0xFFFF, 0x0002)
  | .fillRect _ _ _ _ => (0xFFFF, 0x0103)
  | .eraseRect _ _ _ _ => (0xFFFF, 0x0003)
  | .displayOff => (0xFF, 0xAE)
  | .setClockDiv _ => (0xFF, 0xD5)
  | .setMultiplex _ => (0xFF, 0xA8)
  | .setDisplayOffset _ => (0xFF, 0xD3)
  | .setStartLine _ => (0xC0, 0x40)
  | .chargePump _ => (0xFF, 0x8D)
  | .setMemoryMode _ => (0xFF, 0x20)
  | .segmentRemap _ => (0xFE, 0xA0)
  | .comScanDir _ => (0xF7, 0xC0)
  | .setComPins _ => (0xFF, 0xDA)
  | .setContrast _ => (0xFF, 0x81)
  | .setPrecharge _ => (0xFF, 0xD9)
  | .setVcomh _ => (0xFF, 0xDB)
  | .displayResume => (0xFF, 0xA4)
  | .normalDisplay => (0xFF, 0xA6)
  | .displayOn => (0xFF, 0xAF)
  | .setColumnRange _ _ => (0xFF, 0x21)
  | .setPageRange _ _ => (0xFF, 0x22)
  | .setPageStart _ => (0xF8, 0xB0)
  | .setColLow _ => (0xF0, 0x00)
  | .setColHigh _ => (0xF0, 0x10)
  | .data _ => (0x00, 0x00)

/-- The bits the row fixes have the row's values. -/
def Statement (i : Instr) : Prop := firstWord (encode i) &&& (row i).1 = (row i).2

theorem clear : Statement .clear := by
  simp [Statement, firstWord, row, encode, reqWord]

theorem setPixel (x y : Word) (on : Bool) : Statement (.setPixel x y on) := by
  cases on <;> simp [Statement, firstWord, row, encode, reqWord]

theorem clearRect (x y w h : Word) (on : Bool) : Statement (.clearRect x y w h on) := by
  cases on <;> simp [Statement, firstWord, row, encode, reqWord]

theorem drawImage (img : Image) (x y : Word) : Statement (.drawImage img x y) := by
  simp [Statement, firstWord, row, encode, reqWord]

theorem update : Statement .update := by
  simp [Statement, firstWord, row, encode, reqWord]

theorem shutdown : Statement .shutdown := by
  simp [Statement, firstWord, row, encode, reqWord]

theorem getWidth : Statement .getWidth := by
  simp [Statement, firstWord, row, encode, reqWord]

theorem getHeight : Statement .getHeight := by
  simp [Statement, firstWord, row, encode, reqWord]

theorem pset (x y : Word) : Statement (.pset x y) := by
  simp [Statement, firstWord, row, encode, reqWord]

theorem pclr (x y : Word) : Statement (.pclr x y) := by
  simp [Statement, firstWord, row, encode, reqWord]

theorem fillRect (x y w h : Word) : Statement (.fillRect x y w h) := by
  simp [Statement, firstWord, row, encode, reqWord]

theorem eraseRect (x y w h : Word) : Statement (.eraseRect x y w h) := by
  simp [Statement, firstWord, row, encode, reqWord]

theorem displayOff : Statement .displayOff := by
  simp [Statement, firstWord, row, encode]

theorem setClockDiv (arg : Byte) : Statement (.setClockDiv arg) := by
  simp [Statement, firstWord, row, encode]

theorem setMultiplex (arg : Byte) : Statement (.setMultiplex arg) := by
  simp [Statement, firstWord, row, encode]

theorem setDisplayOffset (arg : Byte) : Statement (.setDisplayOffset arg) := by
  simp [Statement, firstWord, row, encode]

theorem setStartLine (l : BitVec 6) : Statement (.setStartLine l) := by revert l; unfold Statement; decide

theorem chargePump (arg : Byte) : Statement (.chargePump arg) := by
  simp [Statement, firstWord, row, encode]

theorem setMemoryMode (arg : Byte) : Statement (.setMemoryMode arg) := by
  simp [Statement, firstWord, row, encode]

theorem segmentRemap (r : BitVec 1) : Statement (.segmentRemap r) := by revert r; unfold Statement; decide

theorem comScanDir (d : BitVec 1) : Statement (.comScanDir d) := by revert d; unfold Statement; decide

theorem setComPins (arg : Byte) : Statement (.setComPins arg) := by
  simp [Statement, firstWord, row, encode]

theorem setContrast (arg : Byte) : Statement (.setContrast arg) := by
  simp [Statement, firstWord, row, encode]

theorem setPrecharge (arg : Byte) : Statement (.setPrecharge arg) := by
  simp [Statement, firstWord, row, encode]

theorem setVcomh (arg : Byte) : Statement (.setVcomh arg) := by
  simp [Statement, firstWord, row, encode]

theorem displayResume : Statement .displayResume := by
  simp [Statement, firstWord, row, encode]

theorem normalDisplay : Statement .normalDisplay := by
  simp [Statement, firstWord, row, encode]

theorem displayOn : Statement .displayOn := by
  simp [Statement, firstWord, row, encode]

theorem setColumnRange (first last : Byte) : Statement (.setColumnRange first last) := by
  simp [Statement, firstWord, row, encode]

theorem setPageRange (first last : Byte) : Statement (.setPageRange first last) := by
  simp [Statement, firstWord, row, encode]

theorem setPageStart (p : BitVec 3) : Statement (.setPageStart p) := by revert p; unfold Statement; decide

theorem setColLow (c : BitVec 4) : Statement (.setColLow c) := by revert c; unfold Statement; decide

theorem setColHigh (c : BitVec 4) : Statement (.setColHigh c) := by revert c; unfold Statement; decide

theorem data (d : Byte) : Statement (.data d) := by simp [Statement, firstWord, row, encode]

end Sys2Proof.Laws.RowMatch
end

