-- ==== Sys2Proof/Laws/Pixels.lean ====
section
/-! SUPPORT. The laws of the pixel unit and of the whole-panel operations: where a pixel lies, what a byte reads after a pixel write,
and that each keeps a framebuffer a framebuffer. -/

namespace Sys2Proof.Machine

/-- A pixel of the native panel lies inside FB (R37, R141). -/
theorem pixelPos_lt {px py : Int} (h : inPhysical px py) : pixelPos px py < 1024 := by
  unfold pixelPos; omega

/-- A pixel of the panel is found from its index and bit again (R37). -/
theorem pixelPos_inj {px py qx qy : Int} (h : inPhysical px py) (h' : inPhysical qx qy)
    (hp : pixelPos px py = pixelPos qx qy) (hb : py.toNat % 8 = qy.toNat % 8) : px = qx ∧ py = qy := by
  unfold pixelPos at hp; omega

/-- Every index and bit is a pixel of the panel (R37). -/
theorem inPhysical_of_index {k b : Nat} (hk : k < 1024) (hb : b < 8) :
    inPhysical ((k % 128 : Nat) : Int) ((8 * (k / 128) + b : Nat) : Int) := by
  refine ⟨?_, ?_, ?_, ?_⟩ <;> omega

theorem pixelPos_of_index (k b : Nat) (hb : b < 8) :
    pixelPos ((k % 128 : Nat) : Int) ((8 * (k / 128) + b : Nat) : Int) = k := by
  unfold pixelPos; simp only [Int.toNat_natCast]; omega

/-- A bit of FB is the pixel that lies there (R37). -/
theorem pixelAt_of_index (fb : Memory) {k b : Nat} (hb : b < 8) :
    pixelAt fb ((k % 128 : Nat) : Int) ((8 * (k / 128) + b : Nat) : Int) = (fb.read k).getLsbD b := by
  unfold pixelAt
  rw [pixelPos_of_index k b hb, Int.toNat_natCast]
  congr 1
  omega

theorem getLsbD_pixelMask (py : Int) (b : Nat) : (pixelMask py).getLsbD b = decide (b = py.toNat % 8) := by
  unfold pixelMask
  have h8 : py.toNat % 8 < 8 := Nat.mod_lt _ (by omega)
  by_cases hb : b < 8
  · interval_cases hm : py.toNat % 8 <;> interval_cases b <;> rfl
  · rw [BitVec.getLsbD_of_ge _ _ (by omega)]
    exact (decide_eq_false (by omega)).symm

/-- What a byte reads after a pixel write: the pixel's own byte has its bit set or cleared, every other is unchanged. -/
theorem read_pixelWrite {fb : Memory} (h : fb.wf) (px py : Int) (on : Bool) (a : Nat) :
    (pixelWrite px py on fb).read a =
      if inPhysical px py ∧ a = pixelPos px py then
        (if on then fb.read a ||| pixelMask py else fb.read a &&& ~~~(pixelMask py))
      else fb.read a := by
  unfold pixelWrite
  by_cases hin : inPhysical px py
  · simp only [if_pos hin, Memory.read_write h]
    by_cases ha : a = pixelPos px py
    · subst ha; simp [hin]
    · simp [ha]
  · simp [hin]

theorem pixelWrite_fbWf {fb : Memory} (h : fb.fbWf) (px py : Int) (on : Bool) : (pixelWrite px py on fb).fbWf := by
  unfold pixelWrite
  split
  · exact Memory.fbWf_write h (pixelPos_lt ‹_›)
  · exact h

theorem plot_fbWf {fb : Memory} (h : fb.fbWf) (o : Orient) (x y : Int) (on : Bool) : (plot o x y on fb).fbWf :=
  pixelWrite_fbWf h _ _ _

theorem repaint_fbWf (o : Orient) (f : Int → Int → Bool → Bool) (fb : Memory) : (repaint o f fb).fbWf :=
  Memory.fbWf_ofBytes _

theorem fillRectangle_fbWf (o : Orient) (x y w h : Int) (on : Bool) (fb : Memory) :
    (fillRectangle o x y w h on fb).fbWf := repaint_fbWf _ _ _

theorem blit_fbWf (o : Orient) (img : Image) (x y : Int) (fb : Memory) : (blit o img x y fb).fbWf := repaint_fbWf _ _ _

/-- A bit of FB after a repaint: the new value of the pixel that lies there. -/
theorem getLsbD_read_repaint (o : Orient) (f : Int → Int → Bool → Bool) (fb : Memory) {k b : Nat} (hk : k < 1024)
    (hb : b < 8) :
    ((repaint o f fb).read k).getLsbD b =
      f (unrot o (k % 128 : Nat) (8 * (k / 128) + b : Nat)).1 (unrot o (k % 128 : Nat) (8 * (k / 128) + b : Nat)).2
        ((fb.read k).getLsbD b) := by
  unfold repaint
  rw [Memory.read_ofBytes _ hk, getLsbD_byteOfBits _ hb]

/-- The inverse transform undoes the transform (R161, R168). -/
theorem unrot_rot (o : Orient) (x y : Int) : unrot o (rot o x y).1 (rot o x y).2 = (x, y) := by
  cases o <;> refine Prod.ext ?_ ?_ <;> simp only [rot, unrot, logicalWidth, logicalHeight] <;> omega

theorem rot_unrot (o : Orient) (px py : Int) : rot o (unrot o px py).1 (unrot o px py).2 = (px, py) := by
  cases o <;> refine Prod.ext ?_ ?_ <;> simp only [rot, unrot, logicalWidth, logicalHeight] <;> omega

end Sys2Proof.Machine
end

