-- ==== Sys2Proof/Laws/State.lean ====
section
/-! SUPPORT. One lemma per field and per named update of State: what each update leaves in each field. -/

namespace Sys2Proof.Machine

/-! ## `respond` (R301) -/

@[simp] theorem State.respond_cfgBus (code : RespCode) (data : Word) (s : State) : (s.respond code data).cfgBus = s.cfgBus := rfl
@[simp] theorem State.respond_cfgAddr (code : RespCode) (data : Word) (s : State) : (s.respond code data).cfgAddr = s.cfgAddr := rfl
@[simp] theorem State.respond_cfgOrient (code : RespCode) (data : Word) (s : State) : (s.respond code data).cfgOrient = s.cfgOrient := rfl
@[simp] theorem State.respond_cfgAmode (code : RespCode) (data : Word) (s : State) : (s.respond code data).cfgAmode = s.cfgAmode := rfl
@[simp] theorem State.respond_fb (code : RespCode) (data : Word) (s : State) : (s.respond code data).fb = s.fb := rfl
@[simp] theorem State.respond_cstate (code : RespCode) (data : Word) (s : State) : (s.respond code data).cstate = s.cstate := rfl
@[simp] theorem State.respond_txh (code : RespCode) (data : Word) (s : State) : (s.respond code data).txh = s.txh := rfl
@[simp] theorem State.respond_log (code : RespCode) (data : Word) (s : State) : (s.respond code data).log = s.log := rfl
@[simp] theorem State.respond_fault (code : RespCode) (data : Word) (s : State) : (s.respond code data).fault = s.fault := rfl
@[simp] theorem State.respond_seqK (code : RespCode) (data : Word) (s : State) : (s.respond code data).seqK = s.seqK := rfl
@[simp] theorem State.respond_busy (code : RespCode) (data : Word) (s : State) : (s.respond code data).busy = s.busy := rfl
@[simp] theorem State.respond_respCode (code : RespCode) (data : Word) (s : State) : (s.respond code data).respCode = code := rfl
@[simp] theorem State.respond_respData (code : RespCode) (data : Word) (s : State) : (s.respond code data).respData = data := rfl
@[simp] theorem State.respond_op (code : RespCode) (data : Word) (s : State) : (s.respond code data).op = s.op := rfl
@[simp] theorem State.respond_on (code : RespCode) (data : Word) (s : State) : (s.respond code data).on = s.on := rfl
@[simp] theorem State.respond_x (code : RespCode) (data : Word) (s : State) : (s.respond code data).x = s.x := rfl
@[simp] theorem State.respond_y (code : RespCode) (data : Word) (s : State) : (s.respond code data).y = s.y := rfl
@[simp] theorem State.respond_w (code : RespCode) (data : Word) (s : State) : (s.respond code data).w = s.w := rfl
@[simp] theorem State.respond_h (code : RespCode) (data : Word) (s : State) : (s.respond code data).h = s.h := rfl
@[simp] theorem State.respond_img (code : RespCode) (data : Word) (s : State) : (s.respond code data).img = s.img := rfl
@[simp] theorem State.respond_seq (code : RespCode) (data : Word) (s : State) : (s.respond code data).seq = s.seq := rfl
@[simp] theorem State.respond_waiting (code : RespCode) (data : Word) (s : State) : (s.respond code data).waiting = s.waiting := rfl
@[simp] theorem State.respond_port (code : RespCode) (data : Word) (s : State) : (s.respond code data).port = s.port := rfl
@[simp] theorem State.respond_requester (code : RespCode) (data : Word) (s : State) : (s.respond code data).requester = s.requester := rfl
@[simp] theorem State.respond_responses (code : RespCode) (data : Word) (s : State) : (s.respond code data).responses = s.responses ++ [⟨s.requester, code, data⟩] := rfl
@[simp] theorem State.respond_trace (code : RespCode) (data : Word) (s : State) : (s.respond code data).trace = s.trace := rfl
@[simp] theorem State.respond_params (code : RespCode) (data : Word) (s : State) : (s.respond code data).params = s.params := rfl
@[simp] theorem State.respond_answers (code : RespCode) (data : Word) (s : State) : (s.respond code data).answers = s.answers := rfl
@[simp] theorem State.respond_arbK (code : RespCode) (data : Word) (s : State) : (s.respond code data).arbK = s.arbK := rfl

/-! ## the end of an operation (R107) -/

@[simp] theorem State.complete_cfgBus (code : RespCode) (data : Word) (s : State) : (s.complete code data).cfgBus = s.cfgBus := rfl
@[simp] theorem State.complete_cfgAddr (code : RespCode) (data : Word) (s : State) : (s.complete code data).cfgAddr = s.cfgAddr := rfl
@[simp] theorem State.complete_cfgOrient (code : RespCode) (data : Word) (s : State) : (s.complete code data).cfgOrient = s.cfgOrient := rfl
@[simp] theorem State.complete_cfgAmode (code : RespCode) (data : Word) (s : State) : (s.complete code data).cfgAmode = s.cfgAmode := rfl
@[simp] theorem State.complete_fb (code : RespCode) (data : Word) (s : State) : (s.complete code data).fb = s.fb := rfl
@[simp] theorem State.complete_cstate (code : RespCode) (data : Word) (s : State) : (s.complete code data).cstate = s.cstate := rfl
@[simp] theorem State.complete_txh (code : RespCode) (data : Word) (s : State) : (s.complete code data).txh = s.txh := rfl
@[simp] theorem State.complete_log (code : RespCode) (data : Word) (s : State) : (s.complete code data).log = s.log := rfl
@[simp] theorem State.complete_fault (code : RespCode) (data : Word) (s : State) : (s.complete code data).fault = s.fault := rfl
@[simp] theorem State.complete_seqK (code : RespCode) (data : Word) (s : State) : (s.complete code data).seqK = s.seqK := rfl
@[simp] theorem State.complete_busy (code : RespCode) (data : Word) (s : State) : (s.complete code data).busy = false := rfl
@[simp] theorem State.complete_respCode (code : RespCode) (data : Word) (s : State) : (s.complete code data).respCode = code := rfl
@[simp] theorem State.complete_respData (code : RespCode) (data : Word) (s : State) : (s.complete code data).respData = data := rfl
@[simp] theorem State.complete_op (code : RespCode) (data : Word) (s : State) : (s.complete code data).op = s.op := rfl
@[simp] theorem State.complete_on (code : RespCode) (data : Word) (s : State) : (s.complete code data).on = s.on := rfl
@[simp] theorem State.complete_x (code : RespCode) (data : Word) (s : State) : (s.complete code data).x = s.x := rfl
@[simp] theorem State.complete_y (code : RespCode) (data : Word) (s : State) : (s.complete code data).y = s.y := rfl
@[simp] theorem State.complete_w (code : RespCode) (data : Word) (s : State) : (s.complete code data).w = s.w := rfl
@[simp] theorem State.complete_h (code : RespCode) (data : Word) (s : State) : (s.complete code data).h = s.h := rfl
@[simp] theorem State.complete_img (code : RespCode) (data : Word) (s : State) : (s.complete code data).img = s.img := rfl
@[simp] theorem State.complete_seq (code : RespCode) (data : Word) (s : State) : (s.complete code data).seq = s.seq := rfl
@[simp] theorem State.complete_waiting (code : RespCode) (data : Word) (s : State) : (s.complete code data).waiting = s.waiting := rfl
@[simp] theorem State.complete_port (code : RespCode) (data : Word) (s : State) : (s.complete code data).port = s.port := rfl
@[simp] theorem State.complete_requester (code : RespCode) (data : Word) (s : State) : (s.complete code data).requester = s.requester := rfl
@[simp] theorem State.complete_responses (code : RespCode) (data : Word) (s : State) : (s.complete code data).responses = s.responses ++ [⟨s.requester, code, data⟩] := rfl
@[simp] theorem State.complete_trace (code : RespCode) (data : Word) (s : State) : (s.complete code data).trace = s.trace := rfl
@[simp] theorem State.complete_params (code : RespCode) (data : Word) (s : State) : (s.complete code data).params = s.params := rfl
@[simp] theorem State.complete_answers (code : RespCode) (data : Word) (s : State) : (s.complete code data).answers = s.answers := rfl
@[simp] theorem State.complete_arbK (code : RespCode) (data : Word) (s : State) : (s.complete code data).arbK = s.arbK := rfl

/-! ## a usage fault (R305) -/

@[simp] theorem State.recordFault_cfgBus (f : UsageFault) (s : State) : (s.recordFault f).cfgBus = s.cfgBus := rfl
@[simp] theorem State.recordFault_cfgAddr (f : UsageFault) (s : State) : (s.recordFault f).cfgAddr = s.cfgAddr := rfl
@[simp] theorem State.recordFault_cfgOrient (f : UsageFault) (s : State) : (s.recordFault f).cfgOrient = s.cfgOrient := rfl
@[simp] theorem State.recordFault_cfgAmode (f : UsageFault) (s : State) : (s.recordFault f).cfgAmode = s.cfgAmode := rfl
@[simp] theorem State.recordFault_fb (f : UsageFault) (s : State) : (s.recordFault f).fb = s.fb := rfl
@[simp] theorem State.recordFault_cstate (f : UsageFault) (s : State) : (s.recordFault f).cstate = s.cstate := rfl
@[simp] theorem State.recordFault_txh (f : UsageFault) (s : State) : (s.recordFault f).txh = s.txh := rfl
@[simp] theorem State.recordFault_log (f : UsageFault) (s : State) : (s.recordFault f).log = s.log := rfl
@[simp] theorem State.recordFault_fault (f : UsageFault) (s : State) : (s.recordFault f).fault = faultWith f s.fault := rfl
@[simp] theorem State.recordFault_seqK (f : UsageFault) (s : State) : (s.recordFault f).seqK = s.seqK := rfl
@[simp] theorem State.recordFault_busy (f : UsageFault) (s : State) : (s.recordFault f).busy = false := rfl
@[simp] theorem State.recordFault_respCode (f : UsageFault) (s : State) : (s.recordFault f).respCode = s.respCode := rfl
@[simp] theorem State.recordFault_respData (f : UsageFault) (s : State) : (s.recordFault f).respData = s.respData := rfl
@[simp] theorem State.recordFault_op (f : UsageFault) (s : State) : (s.recordFault f).op = s.op := rfl
@[simp] theorem State.recordFault_on (f : UsageFault) (s : State) : (s.recordFault f).on = s.on := rfl
@[simp] theorem State.recordFault_x (f : UsageFault) (s : State) : (s.recordFault f).x = s.x := rfl
@[simp] theorem State.recordFault_y (f : UsageFault) (s : State) : (s.recordFault f).y = s.y := rfl
@[simp] theorem State.recordFault_w (f : UsageFault) (s : State) : (s.recordFault f).w = s.w := rfl
@[simp] theorem State.recordFault_h (f : UsageFault) (s : State) : (s.recordFault f).h = s.h := rfl
@[simp] theorem State.recordFault_img (f : UsageFault) (s : State) : (s.recordFault f).img = s.img := rfl
@[simp] theorem State.recordFault_seq (f : UsageFault) (s : State) : (s.recordFault f).seq = s.seq := rfl
@[simp] theorem State.recordFault_waiting (f : UsageFault) (s : State) : (s.recordFault f).waiting = s.waiting := rfl
@[simp] theorem State.recordFault_port (f : UsageFault) (s : State) : (s.recordFault f).port = s.port := rfl
@[simp] theorem State.recordFault_requester (f : UsageFault) (s : State) : (s.recordFault f).requester = s.requester := rfl
@[simp] theorem State.recordFault_responses (f : UsageFault) (s : State) : (s.recordFault f).responses = s.responses := rfl
@[simp] theorem State.recordFault_trace (f : UsageFault) (s : State) : (s.recordFault f).trace = s.trace := rfl
@[simp] theorem State.recordFault_params (f : UsageFault) (s : State) : (s.recordFault f).params = s.params := rfl
@[simp] theorem State.recordFault_answers (f : UsageFault) (s : State) : (s.recordFault f).answers = s.answers := rfl
@[simp] theorem State.recordFault_arbK (f : UsageFault) (s : State) : (s.recordFault f).arbK = s.arbK := rfl

/-! ## the start of a refresh (R240) -/

@[simp] theorem State.startRefresh_cfgBus (s : State) : s.startRefresh.cfgBus = s.cfgBus := rfl
@[simp] theorem State.startRefresh_cfgAddr (s : State) : s.startRefresh.cfgAddr = s.cfgAddr := rfl
@[simp] theorem State.startRefresh_cfgOrient (s : State) : s.startRefresh.cfgOrient = s.cfgOrient := rfl
@[simp] theorem State.startRefresh_cfgAmode (s : State) : s.startRefresh.cfgAmode = s.cfgAmode := rfl
@[simp] theorem State.startRefresh_fb (s : State) : s.startRefresh.fb = s.fb := rfl
@[simp] theorem State.startRefresh_cstate (s : State) : s.startRefresh.cstate = s.cstate := rfl
@[simp] theorem State.startRefresh_txh (s : State) : s.startRefresh.txh = s.txh := rfl
@[simp] theorem State.startRefresh_log (s : State) : s.startRefresh.log = s.log := rfl
@[simp] theorem State.startRefresh_fault (s : State) : s.startRefresh.fault = s.fault := rfl
@[simp] theorem State.startRefresh_seqK (s : State) : s.startRefresh.seqK = 0 := rfl
@[simp] theorem State.startRefresh_busy (s : State) : s.startRefresh.busy = s.busy := rfl
@[simp] theorem State.startRefresh_respCode (s : State) : s.startRefresh.respCode = s.respCode := rfl
@[simp] theorem State.startRefresh_respData (s : State) : s.startRefresh.respData = s.respData := rfl
@[simp] theorem State.startRefresh_op (s : State) : s.startRefresh.op = s.op := rfl
@[simp] theorem State.startRefresh_on (s : State) : s.startRefresh.on = s.on := rfl
@[simp] theorem State.startRefresh_x (s : State) : s.startRefresh.x = s.x := rfl
@[simp] theorem State.startRefresh_y (s : State) : s.startRefresh.y = s.y := rfl
@[simp] theorem State.startRefresh_w (s : State) : s.startRefresh.w = s.w := rfl
@[simp] theorem State.startRefresh_h (s : State) : s.startRefresh.h = s.h := rfl
@[simp] theorem State.startRefresh_img (s : State) : s.startRefresh.img = s.img := rfl
@[simp] theorem State.startRefresh_seq (s : State) : s.startRefresh.seq = refreshSequence s.cfgAmode s.params.pageTx s.fb := rfl
@[simp] theorem State.startRefresh_waiting (s : State) : s.startRefresh.waiting = s.waiting := rfl
@[simp] theorem State.startRefresh_port (s : State) : s.startRefresh.port = s.port := rfl
@[simp] theorem State.startRefresh_requester (s : State) : s.startRefresh.requester = s.requester := rfl
@[simp] theorem State.startRefresh_responses (s : State) : s.startRefresh.responses = s.responses := rfl
@[simp] theorem State.startRefresh_trace (s : State) : s.startRefresh.trace = s.trace := rfl
@[simp] theorem State.startRefresh_params (s : State) : s.startRefresh.params = s.params := rfl
@[simp] theorem State.startRefresh_answers (s : State) : s.startRefresh.answers = s.answers := rfl
@[simp] theorem State.startRefresh_arbK (s : State) : s.startRefresh.arbK = s.arbK := rfl

/-! ## acceptance's latches (R104) -/

@[simp] theorem State.latch_cfgBus (q : Waiting) (s : State) : (s.latch q).cfgBus = s.cfgBus := rfl
@[simp] theorem State.latch_cfgAddr (q : Waiting) (s : State) : (s.latch q).cfgAddr = s.cfgAddr := rfl
@[simp] theorem State.latch_cfgOrient (q : Waiting) (s : State) : (s.latch q).cfgOrient = s.cfgOrient := rfl
@[simp] theorem State.latch_cfgAmode (q : Waiting) (s : State) : (s.latch q).cfgAmode = s.cfgAmode := rfl
@[simp] theorem State.latch_fb (q : Waiting) (s : State) : (s.latch q).fb = s.fb := rfl
@[simp] theorem State.latch_cstate (q : Waiting) (s : State) : (s.latch q).cstate = s.cstate := rfl
@[simp] theorem State.latch_txh (q : Waiting) (s : State) : (s.latch q).txh = s.txh := rfl
@[simp] theorem State.latch_log (q : Waiting) (s : State) : (s.latch q).log = s.log := rfl
@[simp] theorem State.latch_fault (q : Waiting) (s : State) : (s.latch q).fault = s.fault := rfl
@[simp] theorem State.latch_seqK (q : Waiting) (s : State) : (s.latch q).seqK = s.seqK := rfl
@[simp] theorem State.latch_busy (q : Waiting) (s : State) : (s.latch q).busy = true := rfl
@[simp] theorem State.latch_respCode (q : Waiting) (s : State) : (s.latch q).respCode = s.respCode := rfl
@[simp] theorem State.latch_respData (q : Waiting) (s : State) : (s.latch q).respData = s.respData := rfl
@[simp] theorem State.latch_op (q : Waiting) (s : State) : (s.latch q).op = reqOp q.request := rfl
@[simp] theorem State.latch_on (q : Waiting) (s : State) : (s.latch q).on = reqOn q.request := rfl
@[simp] theorem State.latch_x (q : Waiting) (s : State) : (s.latch q).x = q.request.x := rfl
@[simp] theorem State.latch_y (q : Waiting) (s : State) : (s.latch q).y = q.request.y := rfl
@[simp] theorem State.latch_w (q : Waiting) (s : State) : (s.latch q).w = q.request.w := rfl
@[simp] theorem State.latch_h (q : Waiting) (s : State) : (s.latch q).h = q.request.h := rfl
@[simp] theorem State.latch_img (q : Waiting) (s : State) : (s.latch q).img = if reqOp q.request = 0x04#8 then q.request.img else s.img := rfl
@[simp] theorem State.latch_seq (q : Waiting) (s : State) : (s.latch q).seq = s.seq := rfl
@[simp] theorem State.latch_waiting (q : Waiting) (s : State) : (s.latch q).waiting = s.waiting := rfl
@[simp] theorem State.latch_port (q : Waiting) (s : State) : (s.latch q).port = s.port := rfl
@[simp] theorem State.latch_requester (q : Waiting) (s : State) : (s.latch q).requester = some q.caller := rfl
@[simp] theorem State.latch_responses (q : Waiting) (s : State) : (s.latch q).responses = s.responses := rfl
@[simp] theorem State.latch_trace (q : Waiting) (s : State) : (s.latch q).trace = s.trace := rfl
@[simp] theorem State.latch_params (q : Waiting) (s : State) : (s.latch q).params = s.params := rfl
@[simp] theorem State.latch_answers (q : Waiting) (s : State) : (s.latch q).answers = s.answers := rfl
@[simp] theorem State.latch_arbK (q : Waiting) (s : State) : (s.latch q).arbK = s.arbK := rfl

/-! ## a request presented (R104) -/

@[simp] theorem State.present_cfgBus (caller : Nat) (r : Request) (s : State) : (s.present caller r).cfgBus = s.cfgBus := rfl
@[simp] theorem State.present_cfgAddr (caller : Nat) (r : Request) (s : State) : (s.present caller r).cfgAddr = s.cfgAddr := rfl
@[simp] theorem State.present_cfgOrient (caller : Nat) (r : Request) (s : State) : (s.present caller r).cfgOrient = s.cfgOrient := rfl
@[simp] theorem State.present_cfgAmode (caller : Nat) (r : Request) (s : State) : (s.present caller r).cfgAmode = s.cfgAmode := rfl
@[simp] theorem State.present_fb (caller : Nat) (r : Request) (s : State) : (s.present caller r).fb = s.fb := rfl
@[simp] theorem State.present_cstate (caller : Nat) (r : Request) (s : State) : (s.present caller r).cstate = s.cstate := rfl
@[simp] theorem State.present_txh (caller : Nat) (r : Request) (s : State) : (s.present caller r).txh = s.txh := rfl
@[simp] theorem State.present_log (caller : Nat) (r : Request) (s : State) : (s.present caller r).log = s.log := rfl
@[simp] theorem State.present_fault (caller : Nat) (r : Request) (s : State) : (s.present caller r).fault = s.fault := rfl
@[simp] theorem State.present_seqK (caller : Nat) (r : Request) (s : State) : (s.present caller r).seqK = s.seqK := rfl
@[simp] theorem State.present_busy (caller : Nat) (r : Request) (s : State) : (s.present caller r).busy = s.busy := rfl
@[simp] theorem State.present_respCode (caller : Nat) (r : Request) (s : State) : (s.present caller r).respCode = s.respCode := rfl
@[simp] theorem State.present_respData (caller : Nat) (r : Request) (s : State) : (s.present caller r).respData = s.respData := rfl
@[simp] theorem State.present_op (caller : Nat) (r : Request) (s : State) : (s.present caller r).op = s.op := rfl
@[simp] theorem State.present_on (caller : Nat) (r : Request) (s : State) : (s.present caller r).on = s.on := rfl
@[simp] theorem State.present_x (caller : Nat) (r : Request) (s : State) : (s.present caller r).x = s.x := rfl
@[simp] theorem State.present_y (caller : Nat) (r : Request) (s : State) : (s.present caller r).y = s.y := rfl
@[simp] theorem State.present_w (caller : Nat) (r : Request) (s : State) : (s.present caller r).w = s.w := rfl
@[simp] theorem State.present_h (caller : Nat) (r : Request) (s : State) : (s.present caller r).h = s.h := rfl
@[simp] theorem State.present_img (caller : Nat) (r : Request) (s : State) : (s.present caller r).img = s.img := rfl
@[simp] theorem State.present_seq (caller : Nat) (r : Request) (s : State) : (s.present caller r).seq = s.seq := rfl
@[simp] theorem State.present_waiting (caller : Nat) (r : Request) (s : State) : (s.present caller r).waiting = s.waiting := rfl
@[simp] theorem State.present_port (caller : Nat) (r : Request) (s : State) : (s.present caller r).port = s.port ++ [⟨caller, r⟩] := rfl
@[simp] theorem State.present_requester (caller : Nat) (r : Request) (s : State) : (s.present caller r).requester = s.requester := rfl
@[simp] theorem State.present_responses (caller : Nat) (r : Request) (s : State) : (s.present caller r).responses = s.responses := rfl
@[simp] theorem State.present_trace (caller : Nat) (r : Request) (s : State) : (s.present caller r).trace = s.trace := rfl
@[simp] theorem State.present_params (caller : Nat) (r : Request) (s : State) : (s.present caller r).params = s.params := rfl
@[simp] theorem State.present_answers (caller : Nat) (r : Request) (s : State) : (s.present caller r).answers = s.answers := rfl
@[simp] theorem State.present_arbK (caller : Nat) (r : Request) (s : State) : (s.present caller r).arbK = s.arbK := rfl

/-! ## Reset (R52) -/

@[simp] theorem State.resetWith_cfgBus (c : ConfigInput) : (State.resetWith c).cfgBus = c.bus := rfl
@[simp] theorem State.resetWith_cfgAddr (c : ConfigInput) : (State.resetWith c).cfgAddr = c.addr := rfl
@[simp] theorem State.resetWith_cfgOrient (c : ConfigInput) : (State.resetWith c).cfgOrient = c.orient := rfl
@[simp] theorem State.resetWith_cfgAmode (c : ConfigInput) : (State.resetWith c).cfgAmode = c.amode := rfl
@[simp] theorem State.resetWith_fb (c : ConfigInput) : (State.resetWith c).fb = [] := rfl
@[simp] theorem State.resetWith_cstate (c : ConfigInput) : (State.resetWith c).cstate = .uninitialized := rfl
@[simp] theorem State.resetWith_txh (c : ConfigInput) : (State.resetWith c).txh = false := rfl
@[simp] theorem State.resetWith_log (c : ConfigInput) : (State.resetWith c).log = 0#17 := rfl
@[simp] theorem State.resetWith_fault (c : ConfigInput) : (State.resetWith c).fault = 0#2 := rfl
@[simp] theorem State.resetWith_seqK (c : ConfigInput) : (State.resetWith c).seqK = 0 := rfl
@[simp] theorem State.resetWith_busy (c : ConfigInput) : (State.resetWith c).busy = true := rfl
@[simp] theorem State.resetWith_respCode (c : ConfigInput) : (State.resetWith c).respCode = .ok := rfl
@[simp] theorem State.resetWith_respData (c : ConfigInput) : (State.resetWith c).respData = 0#16 := rfl
@[simp] theorem State.resetWith_op (c : ConfigInput) : (State.resetWith c).op = 0#8 := rfl
@[simp] theorem State.resetWith_on (c : ConfigInput) : (State.resetWith c).on = false := rfl
@[simp] theorem State.resetWith_x (c : ConfigInput) : (State.resetWith c).x = 0#16 := rfl
@[simp] theorem State.resetWith_y (c : ConfigInput) : (State.resetWith c).y = 0#16 := rfl
@[simp] theorem State.resetWith_w (c : ConfigInput) : (State.resetWith c).w = 0#16 := rfl
@[simp] theorem State.resetWith_h (c : ConfigInput) : (State.resetWith c).h = 0#16 := rfl
@[simp] theorem State.resetWith_img (c : ConfigInput) : (State.resetWith c).img = 0#8192 := rfl
@[simp] theorem State.resetWith_seq (c : ConfigInput) : (State.resetWith c).seq = [] := rfl
@[simp] theorem State.resetWith_waiting (c : ConfigInput) : (State.resetWith c).waiting = false := rfl
@[simp] theorem State.resetWith_port (c : ConfigInput) : (State.resetWith c).port = [] := rfl
@[simp] theorem State.resetWith_requester (c : ConfigInput) : (State.resetWith c).requester = none := rfl
@[simp] theorem State.resetWith_responses (c : ConfigInput) : (State.resetWith c).responses = [] := rfl
@[simp] theorem State.resetWith_trace (c : ConfigInput) : (State.resetWith c).trace = [] := rfl
@[simp] theorem State.resetWith_params (c : ConfigInput) : (State.resetWith c).params = Params.recommended := rfl
@[simp] theorem State.resetWith_answers (c : ConfigInput) : (State.resetWith c).answers = [] := rfl
@[simp] theorem State.resetWith_arbK (c : ConfigInput) : (State.resetWith c).arbK = 0 := rfl

end Sys2Proof.Machine
end

