-- ==== Sys2Proof/Laws/Text.lean ====
section
/-! SUPPORT. The laws of the text cursor: where it stands after each kind of character (R197, R198). -/

namespace Sys2Proof.Machine

@[simp] theorem placements_nil (f : Font) (x cx cy : Int) : placements f x cx cy [] = [] := rfl

/-- A newline puts nothing down, returns to the call's column and goes one line height down. -/
@[simp] theorem placements_newline (f : Font) (x cx cy : Int) (text : List Nat) :
    placements f x cx cy (newlineCode :: text) = placements f x x (cy + f.fh) text := if_pos rfl

/-- Any other character stands at the cursor, which then advances. -/
theorem placements_char (f : Font) (x cx cy : Int) {c : Nat} (text : List Nat) (h : c ≠ newlineCode) :
    placements f x cx cy (c :: text) = (c, cx, cy) :: placements f x (cx + f.adv c) cy text := if_neg h

/-- Without a newline the column to return to is not used. -/
theorem placements_column (f : Font) (x x' cx cy : Int) {text : List Nat} (h : newlineCode ∉ text) :
    placements f x cx cy text = placements f x' cx cy text := by
  induction text generalizing cx with
  | nil => rfl
  | cons c text ih =>
    have hc : c ≠ newlineCode := fun e => h (by simp [e])
    rw [placements_char f x cx cy text hc, placements_char f x' cx cy text hc, ih _ fun m => h (by simp [m])]

end Sys2Proof.Machine
end

