-- ==== Sys2Proof/Laws/Transactions.lean ====
section
/-! SUPPORT. The laws of transactions: what issuing a list of them can do (all answered with success, one answered with an I/O error,
one never answered), what no transaction changes, and what the acquisition, a failure, the end of a sequence, a guarded operation and
acceptance can do. -/

namespace Sys2Proof.Machine

@[simp] theorem succeeded_nil : succeeded [] = [] := rfl

@[simp] theorem succeeded_cons (t : Transaction) (ts : List Transaction) :
    succeeded (t :: ts) = .transaction t (some .success) :: succeeded ts := rfl

@[simp] theorem State.issue_nil (s : State) : s.issue [] = s := rfl

/-- A state that has had transactions answered with success. -/
def State.afterSuccess (ts : List Transaction) (rest : List Answer) (s : State) : State :=
  { s with trace := s.trace ++ succeeded ts, answers := rest, seqK := s.seqK + ts.length }

/-- Transactions that are all answered with success: each is in the trace, and SEQ_K has counted each. -/
theorem State.issue_success (ts : List Transaction) (s : State) (rest : List Answer)
    (h : s.answers = List.replicate ts.length .success ++ rest) : s.issue ts = s.afterSuccess ts rest := by
  induction ts generalizing s with
  | nil => cases s; simp_all [State.afterSuccess, succeeded]
  | cons t ts ih =>
    simp only [List.length_cons, List.replicate_succ, List.cons_append] at h
    rw [State.issue, h]
    simp only
    rw [ih _ rfl]
    simp [State.afterSuccess, Nat.add_assoc, Nat.add_comm 1]

/-- Transactions of which one, after `ts` that succeed, is answered with an I/O error: TransportFailure is raised at its ordinal, and
none of `us` is issued. -/
theorem State.issue_failure (ts us : List Transaction) (t : Transaction) (s : State) (rest : List Answer)
    (h : s.answers = List.replicate ts.length .success ++ .failure :: rest) :
    s.issue (ts ++ t :: us) =
      State.raiseTransportFailure (s.seqK + ts.length)
        { s with
          trace := s.trace ++ succeeded ts ++ [.transaction t (some .failure)], answers := rest,
          seqK := s.seqK + ts.length + 1 } := by
  induction ts generalizing s with
  | nil =>
    simp only [List.length_nil, List.replicate_zero, List.nil_append] at h
    simp [State.issue, h]
  | cons u ts ih =>
    simp only [List.length_cons, List.replicate_succ, List.cons_append] at h
    rw [List.cons_append, State.issue, h]
    simp only
    rw [ih _ rfl]
    simp [Nat.add_assoc, Nat.add_comm 1]

/-- Transactions of which one, after `ts` that succeed, is never answered: it stands in the trace without an answer, and the FBC
waits. -/
theorem State.issue_unanswered (ts us : List Transaction) (t : Transaction) (s : State)
    (h : s.answers = List.replicate ts.length .success) :
    s.issue (ts ++ t :: us) =
      { s with
        trace := s.trace ++ succeeded ts ++ [.transaction t none], answers := [], seqK := s.seqK + ts.length,
        waiting := true } := by
  induction ts generalizing s with
  | nil =>
    simp only [List.length_nil, List.replicate_zero] at h
    cases s; simp_all [State.issue]
  | cons u ts ih =>
    simp only [List.length_cons, List.replicate_succ] at h
    rw [List.cons_append, State.issue, h]
    simp only
    rw [ih _ rfl]
    simp [Nat.add_assoc, Nat.add_comm 1]

/-- The answers to a list of transactions are one of three: success to each, an I/O error to one after successes, or successes that run
out before one. -/
theorem answers_cases (n : Nat) (as : List Answer) :
    (∃ rest, as = List.replicate n .success ++ rest) ∨
      (∃ k rest, k < n ∧ as = List.replicate k .success ++ .failure :: rest) ∨
        ∃ k, k < n ∧ as = List.replicate k .success := by
  induction n generalizing as with
  | zero => exact .inl ⟨as, by simp⟩
  | succ n ih =>
    cases as with
    | nil => exact .inr (.inr ⟨0, by omega, rfl⟩)
    | cons a as =>
      cases a with
      | failure => exact .inr (.inl ⟨0, as, by omega, rfl⟩)
      | success =>
        rcases ih as with ⟨rest, rfl⟩ | ⟨k, rest, hk, rfl⟩ | ⟨k, hk, rfl⟩
        · exact .inl ⟨rest, rfl⟩
        · exact .inr (.inl ⟨k + 1, rest, by omega, rfl⟩)
        · exact .inr (.inr ⟨k + 1, by omega, rfl⟩)

/-- What no transaction and no failed one changes: the configuration, FB, FAULT, the operand latches, the port, the requester, the parameters,
the arbiter's counter, and TXH. -/
structure SameOutsideTransport (s t : State) : Prop where
  cfgBus    : t.cfgBus = s.cfgBus
  cfgAddr   : t.cfgAddr = s.cfgAddr
  cfgOrient : t.cfgOrient = s.cfgOrient
  cfgAmode  : t.cfgAmode = s.cfgAmode
  fb        : t.fb = s.fb
  fault     : t.fault = s.fault
  txh       : t.txh = s.txh
  latches   : (t.op, t.on, t.x, t.y, t.w, t.h, t.img) = (s.op, s.on, s.x, s.y, s.w, s.h, s.img)
  port      : t.port = s.port
  requester : t.requester = s.requester
  params    : t.params = s.params
  arbK      : t.arbK = s.arbK

theorem SameOutsideTransport.refl (s : State) : SameOutsideTransport s s := ⟨rfl, rfl, rfl, rfl, rfl, rfl, rfl, rfl, rfl, rfl, rfl, rfl⟩

theorem SameOutsideTransport.trans {s t u : State} (h : SameOutsideTransport s t) (h' : SameOutsideTransport t u) :
    SameOutsideTransport s u :=
  ⟨h'.cfgBus.trans h.cfgBus, h'.cfgAddr.trans h.cfgAddr, h'.cfgOrient.trans h.cfgOrient, h'.cfgAmode.trans h.cfgAmode,
    h'.fb.trans h.fb, h'.fault.trans h.fault, h'.txh.trans h.txh, h'.latches.trans h.latches, h'.port.trans h.port,
    h'.requester.trans h.requester, h'.params.trans h.params, h'.arbK.trans h.arbK⟩

theorem State.raiseTransportFailure_same (k : Nat) (s : State) : SameOutsideTransport s (s.raiseTransportFailure k) := by
  unfold State.raiseTransportFailure
  split <;> exact ⟨rfl, rfl, rfl, rfl, rfl, rfl, rfl, rfl, rfl, rfl, rfl, rfl⟩

/-- Issuing transactions changes only what the transport and its failures change. -/
theorem State.issue_same (ts : List Transaction) (s : State) : SameOutsideTransport s (s.issue ts) := by
  induction ts generalizing s with
  | nil => exact .refl s
  | cons t ts ih =>
    unfold State.issue
    split
    · exact ⟨rfl, rfl, rfl, rfl, rfl, rfl, rfl, rfl, rfl, rfl, rfl, rfl⟩
    · refine SameOutsideTransport.trans ?_ (ih _)
      exact ⟨rfl, rfl, rfl, rfl, rfl, rfl, rfl, rfl, rfl, rfl, rfl, rfl⟩
    · refine SameOutsideTransport.trans ?_ (State.raiseTransportFailure_same _ _)
      exact ⟨rfl, rfl, rfl, rfl, rfl, rfl, rfl, rfl, rfl, rfl, rfl, rfl⟩

/-- Everything `emit` can do. -/
theorem emit_next {ts : List Transaction} {s t : State} (h : emit ts s = .next t) :
    s.sequenceRuns = true ∧ t = s.issue ts := by
  unfold emit at h
  split at h
  · exact ⟨‹_›, by injection h with h; exact h.symm⟩
  · cases h

theorem emit_of_runs (ts : List Transaction) {s : State} (h : s.sequenceRuns = true) : emit ts s = .next (s.issue ts) := by
  simp [emit, h]

/-- Everything a guarded host operation can do (R107). -/
theorem whenLegal_next {op : Byte} {s t : State} {rule : State → State} (h : whenLegal op s rule = .next t) :
    (legal op s.cstate = true ∧ t = rule s) ∨ (legal op s.cstate = false ∧ t = s.recordFault .notReady) := by
  unfold whenLegal at h
  injection h with h
  cases hl : legal op s.cstate <;> simp [hl] at h <;> simp [h]

theorem whenLegal_of_legal {op : Byte} {s : State} (rule : State → State) (h : legal op s.cstate = true) :
    whenLegal op s rule = .next (rule s) := by
  simp [whenLegal, h]

theorem whenLegal_of_illegal {op : Byte} {s : State} (rule : State → State) (h : legal op s.cstate = false) :
    whenLegal op s rule = .next (s.recordFault .notReady) := by
  simp [whenLegal, h]

/-- Everything a raised TransportFailure can do (R303): the handler of the running sequence, or nothing where none runs. -/
theorem State.raiseTransportFailure_cases (k : Nat) (s : State) :
    (s.cstate = .initializing ∧
      s.raiseTransportFailure k = State.complete .configFailure 0#16 { s with cstate := .configFailed, seq := [] }) ∨
    (s.cstate = .ready ∧ s.raiseTransportFailure k = State.complete .ioError 0#16 { s with seq := [] }) ∨
    (s.cstate = .shuttingDown ∧ s.raiseTransportFailure k = { s with log := logOf k, seq := [] }) ∨
    (s.cstate ∉ [CState.initializing, .ready, .shuttingDown] ∧ s.raiseTransportFailure k = s) := by
  unfold State.raiseTransportFailure
  cases hc : s.cstate <;> simp

/-- Everything the acquisition can do (R212, R213). -/
theorem acquire_cases (s : State) :
    (∃ rest, acquire s =
      { s with
        trace := s.trace ++ [.acquire s.cfgBus s.cfgAddr (some .success)], answers := rest, txh := true,
        cstate := .initializing, seqK := 0, seq := initSequence s.params s.cfgAmode }) ∨
    (∃ rest, acquire s = State.complete .configFailure 0#16
      { s with
        trace := s.trace ++ [.acquire s.cfgBus s.cfgAddr (some .failure)], answers := rest, cstate := .configFailed }) ∨
    acquire s = { s with trace := s.trace ++ [.acquire s.cfgBus s.cfgAddr none], waiting := true } := by
  unfold acquire
  rcases s.answers with _ | ⟨_ | _, rest⟩
  · exact .inr (.inr rfl)
  · exact .inl ⟨rest, rfl⟩
  · exact .inr (.inl ⟨rest, rfl⟩)

/-- Everything the end of a sequence can do (R216, R241, R275, R276). -/
theorem State.finish_cases (s : State) :
    (s.cstate = .initializing ∧ s.finish = State.complete .ok 0#16 { s with cstate := .ready }) ∨
    (s.cstate = .ready ∧ s.finish = s.complete .ok 0#16) ∨
    (s.cstate = .shuttingDown ∧
      s.finish = State.complete .ok 0#16 { s with trace := s.trace ++ [.release], txh := false, cstate := .closed }) ∨
    (s.cstate ∉ [CState.initializing, .ready, .shuttingDown] ∧ s.finish = s) := by
  unfold State.finish
  cases hc : s.cstate <;> simp

/-- Everything acceptance changes (R104): the port, the arbiter's counter, BUSY, the requester and the latches. -/
theorem accept_next {s s' : State} {r : Request} (h : accept s = some (r, s')) :
    ∃ q port k, r = q.request ∧ s' = State.latch q { s with port := port, arbK := k } := by
  unfold accept at h
  split at h
  · cases h
  · split at h
    · cases h
    · injection h with h
      injection h with hr hs
      exact ⟨_, _, _, hr.symm, hs.symm⟩

end Sys2Proof.Machine
end

