-- ==== Sys2Proof/Tests/Slice0.lean ====
section
/-! SUPPORT. Tests: the vectors of spec/95_test_vectors.md (V1 to V107) and words written out from 30_encoding.md; the smoke test of
WellFormed; and, for each statement with hypotheses, a state and operands that meet them. -/

namespace Sys2Proof.Tests

open Sys2Proof Sys2Proof.Machine

/-! ## Small states -/

/-- Ready, with an operation accepted: default configuration, FB zero (the starting state of 95_test_vectors.md). -/
def ready : State := { State.reset with cstate := .ready, txh := true }

/-- Ready, with two pixels on. -/
def drawn : State := { ready with fb := [(0, 0x01#8), (1023, 0x80#8)] }

/-- Ready, one orientation. -/
def turned (o : Orient) : State := { ready with cfgOrient := o }

/-- Ready, idle, with one request on the port. -/
def asked (r : Request) : State := { ready with busy := false, port := [⟨7, r⟩] }

/-- UPDATE or init or SHUTDOWN running, with what is left to issue and the answers to come. -/
def running (c : CState) (items : List SeqItem) (as : List Answer) : State :=
  { ready with cstate := c, seq := items, answers := as }

/-- A state of an outcome, or the reset state where there is none. -/
def after : Host.Outcome State Fault Refusal → State
  | .next t => t
  | .fault _ | .refused _ => State.reset

/-! ## WellFormed: each check refuses an ill-formed term -/

theorem test_wf_refuses_multiplex : (Instr.setMultiplex 0x40#8).wf = false := by decide
theorem test_wf_refuses_display_offset : (Instr.setDisplayOffset 0x01#8).wf = false := by decide
theorem test_wf_refuses_start_line : (Instr.setStartLine 1#6).wf = false := by decide
theorem test_wf_refuses_memory_mode : (Instr.setMemoryMode 0x01#8).wf = false := by decide
theorem test_wf_refuses_column_range :
    (Instr.setColumnRange 0x01#8 0x7F#8).wf = false ∧ (Instr.setColumnRange 0x00#8 0x7E#8).wf = false := by decide
theorem test_wf_refuses_page_range :
    (Instr.setPageRange 0x01#8 0x07#8).wf = false ∧ (Instr.setPageRange 0x00#8 0x08#8).wf = false := by decide
theorem test_wf_refuses_col_low : (Instr.setColLow 1#4).wf = false := by decide
theorem test_wf_refuses_col_high : (Instr.setColHigh 1#4).wf = false := by decide

/-! ## Decoding of words written out from R101, R105, R109 (requests) -/

theorem test_decode_clear : decode (.request { req := 0b0000000000000001#16 }) = .ok .clear := by decide
theorem test_decode_clear_ignores_on : decode (.request { req := 0b0000000100000001#16 }) = .ok .clear := by decide
theorem test_decode_set_pixel :
    decode (.request { req := 0b0000000100000010#16, x := 0xFFFF#16, y := 0x0008#16 }) =
      .ok (.setPixel 0xFFFF#16 0x0008#16 true) := by decide
theorem test_decode_pset_words :
    decode (.request { req := 0b0000000100000010#16, x := 5#16, y := 10#16 }) = .ok (Instr.pset 5#16 10#16).core := by decide
theorem test_decode_pclr_words :
    decode (.request { req := 0b0000000000000010#16, x := 5#16, y := 10#16 }) = .ok (Instr.pclr 5#16 10#16).core := by decide
theorem test_decode_clear_rect :
    decode (.request { req := 0b0000000100000011#16, x := 1#16, y := 2#16, w := 3#16, h := 0xFFFD#16 }) =
      .ok (.clearRect 1#16 2#16 3#16 0xFFFD#16 true) := by decide
theorem test_decode_fill_rect_words :
    decode (.request { req := 0b0000000100000011#16, x := 1#16, y := 2#16, w := 3#16, h := 4#16 }) =
      .ok (Instr.fillRect 1#16 2#16 3#16 4#16).core := by decide
theorem test_decode_erase_rect_words :
    decode (.request { req := 0b0000000000000011#16, x := 1#16, y := 2#16, w := 3#16, h := 4#16 }) =
      .ok (Instr.eraseRect 1#16 2#16 3#16 4#16).core := by decide
theorem test_decode_draw_image :
    decode (.request { req := 0b0000000000000100#16, x := 3#16, y := 9#16, img := 0x80#8192 }) =
      .ok (.drawImage 0x80#8192 3#16 9#16) := rfl
theorem test_decode_update : decode (.request { req := 0b0000000000000101#16 }) = .ok .update := by decide
theorem test_decode_shutdown : decode (.request { req := 0b0000000000000110#16 }) = .ok .shutdown := by decide
theorem test_decode_get_width : decode (.request { req := 0b0000000000000111#16 }) = .ok .getWidth := by decide
theorem test_decode_get_height : decode (.request { req := 0b0000000000001000#16 }) = .ok .getHeight := by decide

/-- V100 to V103: the reserved encodings (R106). -/
theorem test_decode_reserved :
    decode (.request { req := 0x0000#16 }) = .error (.reservedOpcode 0x00#8) ∧
      decode (.request { req := 0x0009#16 }) = .error (.reservedOpcode 0x09#8) ∧
      decode (.request { req := 0x00FF#16 }) = .error (.reservedOpcode 0xFF#8) ∧
      decode (.request { req := 0x0302#16 }) = .error (.reservedBits 1#7) := by decide

/-- The 80-bit listing word of V20, `0009_0002_0000_0000_0103` (R100). -/
theorem test_decode_listing_word :
    decode (.request (requestOfWord 0x00090002000000000103)) = .ok (.clearRect 0#16 0#16 2#16 9#16 true) := by decide

/-- Listing lines (R108, R109), with the encodings V13 and V22 give. -/
theorem test_assemble :
    assemble [] "SET_PIXEL 200, 0, 1 ; V13".toList = some (.setPixel 0x00C8#16 0#16 true) ∧
      assemble [] "CLEAR_RECT 5, 5, 10, -3, 1".toList = some (.clearRect 5#16 5#16 10#16 0xFFFD#16 true) ∧
      assemble [("img".toList, 0x80#8192)] "DRAW_IMAGE img, 0x3, 9".toList = some (.drawImage 0x80#8192 3#16 9#16) ∧
      assemble [] "PCLR -1, 8".toList = some (.pclr 0xFFFF#16 8#16) ∧
      assemble [] "SET_PIXEL 1, 1, 2".toList = none := by decide +kernel

/-! ## Decoding of words written out from R112, R116 to R136 (bus) -/

theorem test_decode_display_off : decode (.command [0b10101110#8]) = .ok .displayOff := by decide
theorem test_decode_set_clock_div : decode (.command [0b11010101#8, 0x80#8]) = .ok (.setClockDiv 0x80#8) := by decide
theorem test_decode_set_multiplex : decode (.command [0b10101000#8, 0x3F#8]) = .ok (.setMultiplex 0x3F#8) := by decide
theorem test_decode_set_display_offset : decode (.command [0b11010011#8, 0x00#8]) = .ok (.setDisplayOffset 0x00#8) := by decide
theorem test_decode_set_start_line :
    decode (.command [0b01000000#8]) = .ok (.setStartLine 0#6) ∧
      decode (.command [0b01100001#8]) = .ok (.setStartLine 0b100001#6) := by decide
theorem test_decode_charge_pump : decode (.command [0b10001101#8, 0x14#8]) = .ok (.chargePump 0x14#8) := by decide
theorem test_decode_set_memory_mode : decode (.command [0b00100000#8, 0x02#8]) = .ok (.setMemoryMode 0x02#8) := by decide
theorem test_decode_segment_remap :
    decode (.command [0b10100000#8]) = .ok (.segmentRemap 0#1) ∧ decode (.command [0b10100001#8]) = .ok (.segmentRemap 1#1) := by
  decide
theorem test_decode_com_scan_dir :
    decode (.command [0b11000000#8]) = .ok (.comScanDir 0#1) ∧ decode (.command [0b11001000#8]) = .ok (.comScanDir 1#1) := by
  decide
theorem test_decode_set_com_pins : decode (.command [0b11011010#8, 0x12#8]) = .ok (.setComPins 0x12#8) := by decide
theorem test_decode_set_contrast : decode (.command [0b10000001#8, 0xCF#8]) = .ok (.setContrast 0xCF#8) := by decide
theorem test_decode_set_precharge : decode (.command [0b11011001#8, 0xF1#8]) = .ok (.setPrecharge 0xF1#8) := by decide
theorem test_decode_set_vcomh : decode (.command [0b11011011#8, 0x40#8]) = .ok (.setVcomh 0x40#8) := by decide
theorem test_decode_display_resume : decode (.command [0b10100100#8]) = .ok .displayResume := by decide
theorem test_decode_normal_display : decode (.command [0b10100110#8]) = .ok .normalDisplay := by decide
theorem test_decode_display_on : decode (.command [0b10101111#8]) = .ok .displayOn := by decide
theorem test_decode_set_column_range :
    decode (.command [0b00100001#8, 0x00#8, 0x7F#8]) = .ok (.setColumnRange 0x00#8 0x7F#8) := by decide
theorem test_decode_set_page_range :
    decode (.command [0b00100010#8, 0x00#8, 0x07#8]) = .ok (.setPageRange 0x00#8 0x07#8) := by decide
theorem test_decode_set_page_start :
    decode (.command [0b10110000#8]) = .ok (.setPageStart 0#3) ∧ decode (.command [0b10110111#8]) = .ok (.setPageStart 7#3) := by
  decide
theorem test_decode_set_col_low :
    decode (.command [0b00000000#8]) = .ok (.setColLow 0#4) ∧ decode (.command [0b00001111#8]) = .ok (.setColLow 15#4) := by decide
theorem test_decode_set_col_high :
    decode (.command [0b00010000#8]) = .ok (.setColHigh 0#4) ∧ decode (.command [0b00011111#8]) = .ok (.setColHigh 15#4) := by
  decide
theorem test_decode_data : decode (.data 0b10000001#8) = .ok (.data 0x81#8) := by decide

/-- R114, R110: a byte that is no opcode, an opcode without its argument, and bytes past a command are refused by name. -/
theorem test_decode_bus_refusals :
    decode (.command [0x23#8]) = .error (.noCommand 0x23#8) ∧ decode (.command [0xD5#8]) = .error .missingArgument ∧
      decode (.command [0xC1#8]) = .error (.noCommand 0xC1#8) ∧ decode (.command [0xAE#8, 0xAF#8]) = .error .extraBytes ∧
      decode (.command []) = .error .noBytes := by decide

/-- R111: argument bytes are read by position; the `0x00` after `0xD3` is no SET_COL_LOW. -/
theorem test_decode_by_position :
    decodeCommands 3 [0xD3#8, 0x00#8, 0x00#8, 0x10#8] = .ok [.setDisplayOffset 0x00#8, .setColLow 0#4, .setColHigh 0#4] := by
  decide

/-! ## Words of the opcode table -/

theorem test_table_words :
    decodeTableWord 80 0x00000000003F007F0102 = some (.setPixel 127#16 63#16 true) ∧
      decodeTableWord 16 0x0005 = some .update ∧ decodeTableWord 16 0x0009 = none ∧ decodeTableWord 8 0xAE = some .displayOff ∧
      decodeTableWord 8 0x23 = some (.data 0x23#8) := by decide

theorem test_fetch_word_request : step (State.reset.withFetchWord 16 0x0007) = exec .getWidth
    (State.latch ⟨0, { req := 0x0007#16 }⟩ { State.reset with cstate := .ready, txh := true, busy := false }) := rfl

theorem test_fetch_word_bus : (after (step (State.reset.withFetchWord 8 0xAE))).trace =
    [.transaction (.writeRegister 0x00#8 0xAE#8) (some .success)] := by decide

/-! ## Host operations -/

/-- What SET_PIXEL leaves in FB, from FB zero. -/
def pixelVector (o : Orient) (x y : Int) : Memory :=
  (after (exec (.setPixel (BitVec.ofInt 16 x) (BitVec.ofInt 16 y) true) (turned o))).fb

/-- V1 to V9d. -/
theorem test_set_pixel_rotated :
    pixelVector .deg0 0 0 = [(0, 0x01#8)] ∧ pixelVector .deg0 127 63 = [(1023, 0x80#8)] ∧
      pixelVector .deg0 127 0 = [(127, 0x01#8)] ∧ pixelVector .deg0 0 63 = [(896, 0x80#8)] ∧
      pixelVector .deg90 0 0 = [(896, 0x80#8)] ∧ pixelVector .deg90 63 127 = [(127, 0x01#8)] ∧
      pixelVector .deg90 5 10 = [(906, 0x04#8)] ∧ pixelVector .deg180 0 0 = [(1023, 0x80#8)] ∧
      pixelVector .deg180 5 10 = [(890, 0x20#8)] ∧ pixelVector .deg270 0 0 = [(127, 0x01#8)] ∧
      pixelVector .deg270 63 127 = [(896, 0x80#8)] ∧ pixelVector .deg270 5 10 = [(117, 0x20#8)] := by decide

/-- V10 to V17b. -/
theorem test_set_pixel_dropped :
    pixelVector .deg0 128 0 = [] ∧ pixelVector .deg0 0 64 = [] ∧ pixelVector .deg0 (-1) 0 = [] ∧ pixelVector .deg0 200 0 = [] ∧
      pixelVector .deg0 (-1) 8 = [] ∧ pixelVector .deg0 (-32768) 32767 = [] ∧ pixelVector .deg90 64 0 = [] ∧
      pixelVector .deg90 0 128 = [] ∧ pixelVector .deg180 128 0 = [] ∧ pixelVector .deg270 0 128 = [] := by decide

/-- S1 and the vector after V9d: clearing a pixel of `FB[138] = 0xFF`. -/
theorem test_pclr : (after (exec (.pclr 10#16 13#16) { ready with fb := [(138, 0xFF#8)] })).fb = [(138, 0xDF#8)] := by decide

/-- S1: `FB[138] = 0x20`. -/
theorem test_pset : (after (exec (.pset 10#16 13#16) ready)).fb = [(138, 0x20#8)] := by decide

/-- V20, V24: the bytes of the rectangles that lie in the first columns. -/
theorem test_clear_rect :
    (after (exec (.clearRect 0#16 0#16 2#16 9#16 true) ready)).fb.read 1 = 0xFF#8 ∧
      (after (exec (.clearRect 0xFFFE#16 0xFFFE#16 4#16 4#16 true) ready)).fb.read 1 = 0x03#8 := by decide +kernel

/-- V22 from `FB[0] = 0x01`: `h < 0` writes nothing; and the loops of R181 for V23. -/
theorem test_clear_rect_edges :
    (after (exec (.clearRect 0#16 0#16 10#16 0xFFFD#16 false) drawn)).fb.read 0 = 0x01#8 ∧
      rectangleLoops .deg0 126 62 4 4 true [] = [(1022, 0xC0#8), (1023, 0xC0#8)] := by decide +kernel

/-- V20 as FILL_RECT. -/
theorem test_fill_rect : (after (exec (.fillRect 0#16 0#16 2#16 9#16) ready)).fb.read 0 = 0xFF#8 := by decide +kernel

/-- By hand from R181: four rows of one column of `FB[0] = 0xFF`, bit 0 the top row. -/
theorem test_erase_rect :
    (after (exec (.eraseRect 0#16 0#16 1#16 4#16) { ready with fb := [(0, 0xFF#8)] })).fb.read 0 = 0xF0#8 := by decide +kernel

/-- V30, V32: `IMG[0] = 0x80` is pixel (0, 0), `IMG[16] = 0x80` pixel (0, 1). -/
theorem test_draw_image :
    (after (exec (.drawImage (imgOfBytes [0x80#8]) 0#16 0#16) ready)).fb.read 0 = 0x01#8 ∧
      (after (exec (.drawImage (imgOfBytes (List.replicate 16 0x00#8 ++ [0x80#8])) 0#16 0#16) ready)).fb.read 0 = 0x02#8 := by
  decide +kernel

/-- V34; and V36 from `FB[0] = 0x01`: columns left of the panel are dropped. -/
theorem test_draw_image_clipped :
    (after (exec (.drawImage (imgOfBytes [0x40#8]) 0xFFFF#16 0#16) ready)).fb.read 0 = 0x01#8 ∧
      (after (exec (.drawImage (imgOfBytes [0x00#8]) 0xFF80#16 0#16) drawn)).fb.read 0 = 0x01#8 := by decide +kernel

/-- V40. -/
theorem test_clear : (after (exec .clear drawn)).fb = [] ∧ (after (exec .clear drawn)).respCode = .ok := by decide

/-- V42, V45, V46. -/
theorem test_get_width :
    (after (exec .getWidth ready)).respData = 128#16 ∧ (after (exec .getWidth (turned .deg270))).respData = 64#16 ∧
      (after (exec .getWidth { turned .deg90 with cstate := .closed })).respData = 64#16 := by decide

/-- V43, V44, V47. -/
theorem test_get_height :
    (after (exec .getHeight (turned .deg90))).respData = 128#16 ∧ (after (exec .getHeight (turned .deg180))).respData = 64#16 ∧
      (after (exec .getHeight { ready with cstate := .configFailed })).respData = 64#16 := by decide

/-- V72, V105, V104: outside Ready. -/
theorem test_usage_faults :
    (after (exec .update { ready with cstate := .closed })).fault = 0b01#2 ∧
      (after (exec .clear { ready with cstate := .closed })).fault = 0b01#2 ∧
      (after (step { asked { req := 0x0009#16 } with cstate := .closed })).fault = 0b10#2 := by decide

/-- V60: the refresh starts at ordinal 0 with 66 commands and blocks left to issue. -/
theorem test_update : (after (exec .update { ready with seqK := 25 })).seqK = 0 ∧
    (after (exec .update ready)).seq.length = 66 ∧ (after (exec .update ready)).cstate = .ready := by decide

/-- V80, V82: the clear comes first; in Closed nothing is left to do. -/
theorem test_shutdown : (after (exec .shutdown drawn)).fb = [] ∧ (after (exec .shutdown drawn)).cstate = .shuttingDown ∧
    (after (exec .shutdown { ready with cstate := .closed })).responses = [⟨none, .ok, 0#16⟩] := by decide

/-- V84: a failed first transaction of the final refresh, and the release after it. -/
theorem test_shutdown_swallows :
    (after (step (running .shuttingDown [.bus (.setColumnRange 0x00#8 0x7F#8)] [.failure]))).log = 0x00001#17 ∧
      (after (step (running .shuttingDown [] []))).trace = [.release] := by decide

/-! ## Bus commands: the bytes of the init sequence R214 and of the refresh R242 and R247, on register 0x00 -/

/-- The transactions a bus command issues on a transport that answers with success. -/
def sent (i : Instr) : List Event := (after (exec i (running .ready [] (List.replicate 3 .success)))).trace

theorem test_display_off : sent .displayOff = succeeded [.writeRegister 0x00#8 0xAE#8] := by decide
theorem test_set_clock_div :
    sent (.setClockDiv 0x80#8) = succeeded [.writeRegister 0x00#8 0xD5#8, .writeRegister 0x00#8 0x80#8] := by decide
theorem test_set_multiplex :
    sent (.setMultiplex 0x3F#8) = succeeded [.writeRegister 0x00#8 0xA8#8, .writeRegister 0x00#8 0x3F#8] := by decide
theorem test_set_display_offset :
    sent (.setDisplayOffset 0x00#8) = succeeded [.writeRegister 0x00#8 0xD3#8, .writeRegister 0x00#8 0x00#8] := by decide
theorem test_set_start_line : sent (.setStartLine 0#6) = succeeded [.writeRegister 0x00#8 0x40#8] := by decide
theorem test_charge_pump :
    sent (.chargePump 0x14#8) = succeeded [.writeRegister 0x00#8 0x8D#8, .writeRegister 0x00#8 0x14#8] := by decide
theorem test_set_memory_mode :
    sent (.setMemoryMode 0x02#8) = succeeded [.writeRegister 0x00#8 0x20#8, .writeRegister 0x00#8 0x02#8] := by decide
theorem test_segment_remap : sent (.segmentRemap 1#1) = succeeded [.writeRegister 0x00#8 0xA1#8] := by decide
theorem test_com_scan_dir : sent (.comScanDir 1#1) = succeeded [.writeRegister 0x00#8 0xC8#8] := by decide
theorem test_set_com_pins :
    sent (.setComPins 0x12#8) = succeeded [.writeRegister 0x00#8 0xDA#8, .writeRegister 0x00#8 0x12#8] := by decide
theorem test_set_contrast :
    sent (.setContrast 0xCF#8) = succeeded [.writeRegister 0x00#8 0x81#8, .writeRegister 0x00#8 0xCF#8] := by decide
theorem test_set_precharge :
    sent (.setPrecharge 0xF1#8) = succeeded [.writeRegister 0x00#8 0xD9#8, .writeRegister 0x00#8 0xF1#8] := by decide
theorem test_set_vcomh :
    sent (.setVcomh 0x40#8) = succeeded [.writeRegister 0x00#8 0xDB#8, .writeRegister 0x00#8 0x40#8] := by decide
theorem test_display_resume : sent .displayResume = succeeded [.writeRegister 0x00#8 0xA4#8] := by decide
theorem test_normal_display : sent .normalDisplay = succeeded [.writeRegister 0x00#8 0xA6#8] := by decide
theorem test_display_on : sent .displayOn = succeeded [.writeRegister 0x00#8 0xAF#8] := by decide
theorem test_set_column_range : sent (.setColumnRange 0x00#8 0x7F#8) =
    succeeded [.writeRegister 0x00#8 0x21#8, .writeRegister 0x00#8 0x00#8, .writeRegister 0x00#8 0x7F#8] := by decide
theorem test_set_page_range : sent (.setPageRange 0x00#8 0x07#8) =
    succeeded [.writeRegister 0x00#8 0x22#8, .writeRegister 0x00#8 0x00#8, .writeRegister 0x00#8 0x07#8] := by decide
theorem test_set_page_start : sent (.setPageStart 7#3) = succeeded [.writeRegister 0x00#8 0xB7#8] := by decide
theorem test_set_col_low : sent (.setColLow 0#4) = succeeded [.writeRegister 0x00#8 0x00#8] := by decide
theorem test_set_col_high : sent (.setColHigh 0#4) = succeeded [.writeRegister 0x00#8 0x10#8] := by decide
theorem test_data : sent (.data 0x81#8) = succeeded [.writeRegister 0x40#8 0x81#8] := by decide

/-- V55: the argument of SET_MULTIPLEX's neighbour fails at ordinal 11 of init. -/
theorem test_init_failure :
    after (step { running .initializing [.bus (.setMemoryMode 0x00#8)] [.success, .failure] with seqK := 10 }) =
      { running .configFailed [] [] with
        seqK := 12, busy := false, respCode := .configFailure, responses := [⟨none, .configFailure, 0#16⟩],
        trace := [.transaction (.writeRegister 0x00#8 0x20#8) (some .success),
          .transaction (.writeRegister 0x00#8 0x00#8) (some .failure)] } := rfl

/-- V50, V51: the 25 bytes of `INIT(00)` and `INIT(02)` (95_test_vectors.md, notation). -/
theorem test_init_bytes :
    (initSequence Params.recommended .horizontal).flatMap itemTransactions =
      [0xAE#8, 0xD5#8, 0x80#8, 0xA8#8, 0x3F#8, 0xD3#8, 0x00#8, 0x40#8, 0x8D#8, 0x14#8, 0x20#8, 0x00#8, 0xA1#8, 0xC8#8, 0xDA#8,
        0x12#8, 0x81#8, 0xCF#8, 0xD9#8, 0xF1#8, 0xDB#8, 0x40#8, 0xA4#8, 0xA6#8, 0xAF#8].map cmd ∧
      initBytes Params.recommended .page = (initBytes Params.recommended .horizontal).set 11 0x02#8 := by decide

/-- V53: a failed acquisition. -/
theorem test_acquire_fails : (after (step { State.reset with answers := [.failure] })).trace = [.acquire 0 0x3C#8 (some .failure)] ∧
    (after (step { State.reset with answers := [.failure] })).cstate = .configFailed := by decide

/-- V57: an unanswered transaction has no step after it. -/
theorem test_unanswered : step { running .initializing [.bus .displayOff] [] with waiting := true } =
    .fault .transportNeverAnswers := rfl

/-! ## Text (V90 to V96: the example font) -/

/-- The example font of 95_test_vectors.md, with one pixel drawn for a glyph. -/
def exampleFont : Font :=
  { fh := 8, cw := fun _ => 5, adv := fun _ => 6, strw := fun s => 6 * s.length - 1, glyph := fun _ cx cy on => [(cx, cy, on)] }

/-- V90, V91, V96. -/
theorem test_text_placements :
    drawStringCentered .deg0 exampleFont [72, 73] 25 true = [.setPixel 58#16 25#16 true, .setPixel 64#16 25#16 true] ∧
      drawString .deg0 exampleFont [65, 10, 66] 10 0 true = [.setPixel 10#16 0#16 true, .setPixel 10#16 8#16 true] ∧
      placements exampleFont 0 0 0 [65, 13, 66] = [(65, 0, 0), (13, 6, 0), (66, 12, 0)] := by decide

/-- V92 to V95. -/
theorem test_text_skipped :
    drawString .deg0 exampleFont [65, 66, 67] 120 0 true = [.setPixel 120#16 0#16 true] ∧
      drawString .deg0 exampleFont [65] 0 60 true = [] ∧ drawString .deg0 exampleFont [65] (-1) 0 true = [] ∧
      (drawStringCentered .deg0 exampleFont (List.replicate 22 65) 0 true).length = 20 := by decide

/-! ## Witnesses: for each statement with hypotheses, a state and operands that meet them -/

theorem witness_TraceCommandsDecodeByPosition :
    ∀ i ∈ [Instr.setDisplayOffset 0x00#8, .setColLow 0#4, .setColumnRange 0x00#8 0x7F#8],
      i.isBus = true ∧ ∀ d, i ≠ .data d := by
  simp [Instr.isBus]

theorem witness_RequestsAreRejectedExactlyWhenReserved :
    decodeRequest { req := 0x0009#16 } = .error (.reservedOpcode 0x09#8) ∧
      decodeRequest { req := 0x0205#16 } = .error (.reservedBits 1#7) ∧ decodeRequest { req := 0x0108#16 } = .ok .getHeight := by
  decide

/-- One pair of requests for each clause: opcodes 1, 2, 3, 4 and 8, different in what the operation does not use. -/
theorem witness_UnusedOperandsAreIgnored :
    ∀ p ∈ [(({ req := 0x0101#16, x := 9#16 } : Request), ({ req := 0x0001#16 } : Request)),
        ({ req := 0x0102#16, x := 1#16, w := 9#16 }, { req := 0x0102#16, x := 1#16 }),
        ({ req := 0x0003#16, y := 2#16, h := 3#16 }, { req := 0x0003#16, y := 2#16, h := 3#16 }),
        ({ req := 0x0104#16, w := 7#16 }, { req := 0x0004#16 }), ({ req := 0x0108#16, h := 5#16 }, { req := 0x0008#16 })],
      p.1.req.toNat % 256 = p.2.req.toNat % 256 ∧ p.1.req.toNat / 512 = 0 ∧ p.2.req.toNat / 512 = 0 ∧
        (p.1.req.toNat % 256 ∈ [2, 3, 4] → p.1.x = p.2.x ∧ p.1.y = p.2.y) ∧
        (p.1.req.toNat % 256 ∈ [2, 3] → p.1.req.getLsbD 8 = p.2.req.getLsbD 8) ∧
        (p.1.req.toNat % 256 = 3 → p.1.w = p.2.w ∧ p.1.h = p.2.h) ∧
        (p.1.req.toNat % 256 = 4 → p.1.img = p.2.img) ∧ 1 ≤ p.1.req.toNat % 256 ∧ p.1.req.toNat % 256 ≤ 8 := by
  decide +kernel

/-- The corners of the logical panel, and a point outside it, in each orientation. -/
theorem witness_RotationIsABijectionOfThePanels :
    (inLogical .deg0 127 63 ∧ inLogical .deg90 63 127 ∧ inLogical .deg180 0 0 ∧ inLogical .deg270 63 0) ∧
      (inPhysical 0 0 ∧ inPhysical 127 63) ∧ ¬ inLogical .deg90 64 0 ∧ rot .deg90 5 10 = rot .deg90 5 10 := by decide

/-- A boundary pixel for each orientation. -/
theorem witness_RotatedPixelsLandWhereTheRuleSays :
    (ready.cstate = .ready ∧ ready.fb.fbWf) ∧ inLogical (turned .deg0).cfgOrient 127 63 ∧
      inLogical (turned .deg90).cfgOrient 63 127 ∧ inLogical (turned .deg180).cfgOrient 0 0 ∧
      inLogical (turned .deg270).cfgOrient 63 0 := by decide

theorem witness_PixelWriteChangesOnlyItsBit :
    drawn.fb.fbWf ∧ ¬ (1023 = (127 : Int).toNat + (63 : Int).toNat / 8 * 128 ∧ 6 = (63 : Int).toNat % 8) := by decide

theorem witness_PixelWriteReadsBack : drawn.fb.fbWf ∧ 127 < 128 ∧ 63 < 64 := by decide

theorem witness_PixelWritesAreIdempotentAndCommute : drawn.fb.fbWf ∧ ((0 : Int), (0 : Int)) ≠ (0, 1) := by decide

/-- V12 and V17: just outside, at two sides. -/
theorem witness_OutOfBoundsWritesAreSilentNoOps :
    ¬ (0 ≤ (-1 : Int) ∧ (-1 : Int) < 128 ∧ 0 ≤ (0 : Int) ∧ (0 : Int) < 64) ∧
      (turned .deg90).cstate = .ready ∧ ¬ inLogical (turned .deg90).cfgOrient (0#16).toInt (128#16).toInt := by decide

theorem witness_SetPixelSetsItsPixel :
    drawn.cstate = .ready ∧ drawn.fb.fbWf ∧ inLogical drawn.cfgOrient 127 63 ∧
      1 ≠ pixelPos (rot drawn.cfgOrient 0 0).1 (rot drawn.cfgOrient 0 0).2 := by decide

theorem witness_ClearZeroesEveryByte : drawn.cstate = .ready := by decide

/-- A pixel inside and one outside the rectangle of V24, and a byte that holds none of its pixels. -/
theorem witness_ClearRectWritesTheClippedRectangle :
    drawn.cstate = .ready ∧ drawn.fb.fbWf ∧ inLogical drawn.cfgOrient 1 1 ∧ inLogical drawn.cfgOrient 2 0 ∧
      ∀ u v : Int, inLogical drawn.cfgOrient u v →
        (0xFFFE#16).toInt ≤ u ∧ u < (0xFFFE#16).toInt + (4#16).toInt ∧
          (0xFFFE#16).toInt ≤ v ∧ v < (0xFFFE#16).toInt + (4#16).toInt →
        2 ≠ pixelPos (rot drawn.cfgOrient u v).1 (rot drawn.cfgOrient u v).2 := by
  refine ⟨by decide, by decide, by decide, by decide, fun u v hin h => ?_⟩
  have h2 : u < 2 := by have : (0xFFFE#16).toInt + (4#16).toInt = 2 := by decide
                        omega
  have h3 : v < 2 := by have : (0xFFFE#16).toInt + (4#16).toInt = 2 := by decide
                        omega
  simp only [pixelPos, rot, drawn, ready, State.reset, State.resetWith]
  omega

theorem witness_ClearRectIsTheLoopsOfItsRule : drawn.cstate = .ready ∧ drawn.fb.fbWf := by decide

/-- The image at `(64, 32)` (V39a): its first pixel on the panel, a pixel left of it, and a byte that holds none of its pixels. -/
theorem witness_DrawImageCopiesTheBitmap :
    drawn.cstate = .ready ∧ drawn.fb.fbWf ∧ inLogical drawn.cfgOrient ((64#16).toInt + 63) ((32#16).toInt + 31) ∧
      (inLogical drawn.cfgOrient 63 32 ∧ (63 : Int) < (64#16).toInt) ∧
      ∀ u v : Int, inLogical drawn.cfgOrient u v →
        (64#16).toInt ≤ u ∧ u < (64#16).toInt + logicalWidth drawn.cfgOrient ∧
          (32#16).toInt ≤ v ∧ v < (32#16).toInt + logicalHeight drawn.cfgOrient →
        63 ≠ pixelPos (rot drawn.cfgOrient u v).1 (rot drawn.cfgOrient u v).2 := by
  refine ⟨by decide, by decide, by decide, by decide, fun u v hin h => ?_⟩
  have h2 : 64 ≤ u := by have : (64#16).toInt = 64 := by decide
                         omega
  simp only [pixelPos, rot, drawn, ready, State.reset, State.resetWith]
  omega

theorem witness_DrawImageIsTheLoopsOfItsRule : drawn.cstate = .ready ∧ drawn.fb.fbWf := by decide

theorem witness_ImageLaw :
    drawn.cstate = .ready ∧ drawn.fb.fbWf ∧ drawn.cfgOrient = .deg0 ∧ 127 < logicalWidth drawn.cfgOrient ∧
      63 < logicalHeight drawn.cfgOrient := by decide

theorem witness_DimensionQueriesAnswerTheLogicalPanel :
    ∀ c ∈ [CState.ready, .closed, .configFailed], ({ turned .deg90 with cstate := c } : State).cstate ∈
      [CState.ready, .closed, .configFailed] := by decide

theorem witness_BusCommandsSendTheirEncoding : encode (.setColumnRange 0x00#8 0x7F#8) = .command [0x21#8, 0x00#8, 0x7F#8] := by
  decide

theorem witness_OneByteCommandsComplete :
    (running .initializing [] [.success]).sequenceRuns = true ∧
      (running .initializing [] [.success]).answers = .success :: [] := by decide

theorem witness_TwoByteCommandsComplete :
    (running .initializing [] [.success, .success]).sequenceRuns = true ∧
      (running .initializing [] [.success, .success]).answers = .success :: .success :: [] := by decide

theorem witness_RangeCommandsComplete :
    (running .ready [] [.success, .success, .success]).sequenceRuns = true ∧
      (running .ready [] [.success, .success, .success]).answers = .success :: .success :: .success :: [] := by decide

theorem witness_DataByteIsSentUnchanged :
    (running .shuttingDown [] [.success, .failure]).sequenceRuns = true ∧
      (running .shuttingDown [] [.success, .failure]).answers = .success :: [.failure] := by decide

/-- The argument of SET_MULTIPLEX fails, the second of its two transactions. -/
def initFailing : State := running .initializing [.bus (.setMultiplex 0x3F#8), .bus .displayOn] [.success, .failure, .success]

theorem witness_InitFailureEndsInConfigFailed :
    initFailing.cstate = .initializing ∧ initFailing.busy = true ∧ initFailing.waiting = false ∧ initFailing.txh = true ∧
      SeqItemOk (.bus (.setMultiplex 0x3F#8)) ∧ initFailing.seq = .bus (.setMultiplex 0x3F#8) :: [.bus .displayOn] ∧
      itemTransactions (.bus (.setMultiplex 0x3F#8)) = [cmd 0xA8#8] ++ cmd 0x3F#8 :: [] ∧
      initFailing.answers = List.replicate 1 .success ++ .failure :: [.success] := by
  refine ⟨rfl, rfl, rfl, rfl, ⟨rfl, rfl⟩, rfl, rfl, rfl⟩

/-- The last argument of SET_COLUMN_RANGE is never answered; and an acquisition is never answered. -/
theorem witness_UnansweredTransportLeavesTheFbcStuck :
    ((running .ready [.bus (.setColumnRange 0x00#8 0x7F#8)] [.success, .success]).sequenceRuns = true ∧
      SeqItemOk (.bus (.setColumnRange 0x00#8 0x7F#8)) ∧
      itemTransactions (.bus (.setColumnRange 0x00#8 0x7F#8)) = [cmd 0x21#8, cmd 0x00#8] ++ cmd 0x7F#8 :: []) ∧
      State.reset.cstate = .uninitialized ∧ State.reset.busy = true ∧ State.reset.waiting = false ∧ State.reset.answers = [] := by
  refine ⟨⟨rfl, ⟨rfl, rfl⟩, rfl⟩, rfl, rfl, rfl, rfl⟩

theorem witness_DrawingOutsideReadyRecordsNotReady :
    ({ drawn with cstate := .closed } : State).cstate ∈ [CState.closed, .configFailed] ∧
      ({ drawn with cstate := .configFailed } : State).cstate ∈ [CState.closed, .configFailed] := by decide

/-- The state `asked r` is in once it has accepted `r`. -/
def took (r : Request) : State := State.latch ⟨7, r⟩ { asked r with port := [] }

/-- V101 and V103: both kinds of illegal request, accepted. -/
theorem witness_IllegalRequestRecordsIllegalOp :
    ((asked { req := 0x0009#16 }).busy = false ∧ (asked { req := 0x0009#16 }).waiting = false ∧
      accept (asked { req := 0x0009#16 }) = some ({ req := 0x0009#16 }, took { req := 0x0009#16 }) ∧
      9 ≤ (0x0009#16).toNat % 256) ∧
      accept (asked { req := 0x0302#16 }) = some ({ req := 0x0302#16 }, took { req := 0x0302#16 }) ∧
      512 ≤ (0x0302#16).toNat := ⟨⟨rfl, rfl, rfl, by decide⟩, rfl, by decide⟩

/-- An accepted illegal request, in a state that has a fault bit already. -/
theorem witness_FaultBitsAreSticky :
    step { asked { req := 0x0000#16 } with fault := 0b01#2 } =
      .next (after (step { asked { req := 0x0000#16 } with fault := 0b01#2 })) := rfl

/-- V54 and V56: the first and the last init transaction. -/
theorem witness_ConstructionFailsPrecisely : 0 < 25 ∧ 24 < 25 := by decide

theorem witness_HorizontalRefreshHasSeventyTransactions : 5 < 6 ∧ 63 < 64 := by decide

theorem witness_PageRefreshHasItsTransactionCounts : 7 < 8 ∧ 127 < 128 := by decide

theorem witness_UpdateStartsItsRefresh : drawn.cstate = .ready := by decide

/-- UPDATE accepted in Ready, with `n` successes and then `as` to come. -/
def updating (n : Nat) (as : List Answer) : State := { drawn with answers := List.replicate n .success ++ as }

theorem witness_UpdateRefreshesThePanel :
    (updating 70 []).cstate = .ready ∧ (updating 70 []).busy = true ∧ (updating 70 []).waiting = false ∧
      (updating 70 []).txh = true ∧
      (updating 70 []).answers =
        List.replicate
          (refreshTransactions (updating 70 []).cfgAmode (updating 70 []).params.pageTx (updating 70 []).fb).length .success ++
          [] := by decide +kernel

/-- V62 and V64: a command fails at ordinal 3, and the last block fails at ordinal 69. -/
theorem witness_FailedUpdateStopsAtItsTransaction :
    (updating 3 [.failure]).cstate = .ready ∧ (updating 3 [.failure]).busy = true ∧ (updating 3 [.failure]).waiting = false ∧
      (updating 3 [.failure]).txh = true ∧
      (∀ k ∈ [3, 69], ∃ us u ws, us.length = k ∧
        refreshTransactions (updating k [.failure]).cfgAmode (updating k [.failure]).params.pageTx (updating k [.failure]).fb =
          us ++ u :: ws ∧
        (updating k [.failure]).answers = List.replicate us.length .success ++ .failure :: []) := by
  refine ⟨rfl, rfl, rfl, rfl, fun k hk => ?_⟩
  have hlen : (horizontalTransactions drawn.fb).length = 70 := by decide +kernel
  have hk' : k < (horizontalTransactions drawn.fb).length := by
    simp only [List.mem_cons, List.not_mem_nil, or_false] at hk; omega
  refine ⟨(horizontalTransactions drawn.fb).take k, (horizontalTransactions drawn.fb)[k],
    (horizontalTransactions drawn.fb).drop (k + 1), by simp [hlen] at hk' ⊢; omega, ?_, ?_⟩
  · show horizontalTransactions drawn.fb = _
    simp
  · rw [List.length_take, Nat.min_eq_left (by omega)]; rfl

theorem witness_ShutdownStartsItsFinalRefresh : drawn.cstate = .ready := by decide

theorem witness_ShutdownClearsFlushesAndReleases :
    (updating 70 []).cstate = .ready ∧ (updating 70 []).busy = true ∧ (updating 70 []).waiting = false ∧
      (updating 70 []).txh = true ∧
      (updating 70 []).answers =
        List.replicate (refreshTransactions (updating 70 []).cfgAmode (updating 70 []).params.pageTx []).length .success ++ [] := by
  decide +kernel

/-- V84: ordinal 0 fails. -/
theorem witness_ShutdownSwallowsAFailedRefresh :
    (updating 0 [.failure]).cstate = .ready ∧ (updating 0 [.failure]).busy = true ∧ (updating 0 [.failure]).waiting = false ∧
      (updating 0 [.failure]).txh = true ∧
      refreshTransactions (updating 0 [.failure]).cfgAmode (updating 0 [.failure]).params.pageTx [] =
        [] ++ cmd 0x21#8 :: (horizontalTransactions []).drop 1 ∧
      (updating 0 [.failure]).answers = List.replicate ([] : List Transaction).length .success ++ .failure :: [] := by
  refine ⟨rfl, rfl, rfl, rfl, rfl, rfl⟩

theorem witness_ShutdownAfterClosedIsANoOp :
    ({ drawn with cstate := .closed } : State).cstate ∈ [CState.closed, .configFailed] ∧
      ({ drawn with cstate := .configFailed } : State).cstate ∈ [CState.closed, .configFailed] := by decide

/-- A Closed controller as SHUTDOWN leaves it, with two more SHUTDOWN requests waiting (V82). -/
def shut : State :=
  { State.reset with cstate := .closed, busy := false, port := [⟨0, { req := 0x0006#16 }⟩, ⟨0, { req := 0x0006#16 }⟩] }

theorem inv_shut : Inv shut :=
  ⟨by decide, ⟨rfl, rfl, rfl⟩, by simp [shut, State.reset, State.resetWith], by decide, by decide⟩

theorem witness_ClosedIsFinal : Inv shut ∧ shut.cstate = .closed ∧ run 2 shut = .next (after (run 2 shut)) :=
  ⟨inv_shut, rfl, rfl⟩

/-- The last block of SHUTDOWN's final refresh is left to issue, and fails. -/
def lastBlock : State := { running .shuttingDown [.block (List.replicate 16 0x00#8)] [.failure] with seqK := 69 }

theorem inv_lastBlock : Inv lastBlock :=
  ⟨by decide, ⟨rfl, rfl⟩, by simp [lastBlock, running, SeqItemOk], by decide, by decide⟩

theorem step_lastBlock : step lastBlock = .next (after (step lastBlock)) := rfl

theorem witness_EveryStepKeepsTheInvariant : Inv lastBlock ∧ step lastBlock = .next (after (step lastBlock)) :=
  ⟨inv_lastBlock, step_lastBlock⟩

/-- The next step of a SHUTDOWN whose final refresh is done moves to Closed. -/
theorem witness_ControllerStateMovesOnlyLegally :
    Inv (running .shuttingDown [] []) ∧ step (running .shuttingDown [] []) = .next (after (step (running .shuttingDown [] []))) ∧
      (after (step (running .shuttingDown [] []))).cstate = .closed :=
  ⟨⟨by decide, ⟨rfl, rfl⟩, by simp [running], by decide, by decide⟩, rfl, rfl⟩

theorem witness_ConfigurationNeverChanges : step lastBlock = .next (after (step lastBlock)) := step_lastBlock

theorem witness_TransactionsOnlyWhileTheTransportIsHeld :
    step lastBlock = .next (after (step lastBlock)) ∧ (after (step lastBlock)).trace ≠ lastBlock.trace := ⟨step_lastBlock, by decide⟩

theorem witness_OnlyThreeKindsOfTransaction :
    Inv lastBlock ∧ step lastBlock = .next (after (step lastBlock)) := ⟨inv_lastBlock, step_lastBlock⟩

theorem witness_NoRequestIsAcceptedWhileBusy :
    Inv lastBlock ∧ lastBlock.busy = true ∧ step lastBlock = .next (after (step lastBlock)) :=
  ⟨inv_lastBlock, rfl, step_lastBlock⟩

theorem witness_RefreshReadsAConsistentSnapshot :
    Inv lastBlock ∧ lastBlock.busy = true ∧ step lastBlock = .next (after (step lastBlock)) :=
  ⟨inv_lastBlock, rfl, step_lastBlock⟩

/-- V85: `LOG = {69, 1} = 0x0008B`. -/
theorem witness_LogIsWrittenOnlyByAFailedFinalRefresh :
    Inv lastBlock ∧ step lastBlock = .next (after (step lastBlock)) ∧ (after (step lastBlock)).log ≠ lastBlock.log ∧
      (after (step lastBlock)).log = 0x0008B#17 := ⟨inv_lastBlock, step_lastBlock, by decide, by decide⟩

/-- A busy step that leaves the FBC busy, and one that ends its operation. -/
theorem witness_EveryOperationGivesOneResponse_busy :
    (Inv lastBlock ∧ step lastBlock = .next (after (step lastBlock)) ∧ lastBlock.busy = true ∧
      (after (step lastBlock)).busy = true) ∧
      Inv drawn ∧ step drawn = .next (after (step drawn)) ∧ drawn.busy = true ∧ (after (step drawn)).busy = false :=
  ⟨⟨inv_lastBlock, step_lastBlock, rfl, rfl⟩,
    ⟨by decide, ⟨rfl, fun _ => rfl⟩, by simp [drawn, ready, State.reset, State.resetWith], by decide, by decide⟩, rfl, rfl, rfl⟩

/-- A request accepted by an idle controller, in Ready or in Closed. -/
def requested (c : CState) (r : Request) : State := { asked r with cstate := c, txh := decide (c = .ready) }

theorem inv_requested (c : CState) (r : Request) (h : c ∈ [CState.ready, .closed]) : Inv (requested c r) := by
  refine ⟨by show Memory.fbWf []; decide, ?_, ?_, ?_, fun _ => rfl⟩
  · simp only [List.mem_cons, List.not_mem_nil, or_false] at h
    rcases h with rfl | rfl
    · exact ⟨rfl, fun _ => rfl⟩
    · exact ⟨rfl, rfl, rfl⟩
  · simp [requested, asked, ready, State.reset, State.resetWith]
  · simp [requested, asked, ready, State.reset, State.resetWith]

/-- A request accepted from idle, for each clause: an illegal one (V104), one outside its state (V105), one that finishes at once
(V42, V82), one that stays busy (V60). -/
theorem witness_EveryOperationGivesOneResponse_idle :
    ∀ p ∈ [(CState.closed, ({ req := 0x0009#16 } : Request)), (.closed, { req := 0x0001#16 }), (.ready, { req := 0x0007#16 }),
        (.closed, { req := 0x0006#16 }), (.ready, { req := 0x0005#16 })],
      Inv (requested p.1 p.2) ∧ step (requested p.1 p.2) = .next (after (step (requested p.1 p.2))) ∧
        (requested p.1 p.2).busy = false ∧
        accept (requested p.1 p.2) = some (p.2, State.latch ⟨7, p.2⟩ { requested p.1 p.2 with port := [] }) := by
  intro p hp
  simp only [List.mem_cons, List.not_mem_nil, or_false] at hp
  rcases hp with rfl | rfl | rfl | rfl | rfl <;> exact ⟨inv_requested _ _ (by decide), rfl, rfl, rfl⟩

/-- An idle FBC with no request. -/
theorem witness_EveryOperationGivesOneResponse_none :
    Inv { shut with port := [] } ∧ step { shut with port := [] } = .next { shut with port := [] } ∧
      accept { shut with port := [] } = none :=
  ⟨⟨by decide, ⟨rfl, rfl, rfl⟩, by simp [shut, State.reset, State.resetWith], by decide, by decide⟩, rfl, rfl⟩

/-- Two callers wait. -/
theorem witness_AcceptanceTakesACallersOldestRequest :
    ({ shut with port := [⟨0, { req := 0x0006#16 }⟩, ⟨1, { req := 0x0007#16 }⟩, ⟨0, { req := 0x0007#16 }⟩] } : State).port ≠ [] := by
  simp

/-- A request of an idle FBC, and the next data byte of a running sequence. -/
theorem witness_StepRunsTheDecodedInstruction :
    ((asked { req := 0x0007#16 }).busy = false ∧ (asked { req := 0x0007#16 }).waiting = false ∧
      accept (asked { req := 0x0007#16 }) = some ({ req := 0x0007#16 }, took { req := 0x0007#16 }) ∧
      decode (.request { req := 0x0007#16 }) = .ok .getWidth) ∧
      (running .ready [.bus (.data 0x80#8)] [.success]).sequenceRuns = true ∧
      (running .ready [.bus (.data 0x80#8)] [.success]).waiting = false ∧ decode (.data 0x80#8) = .ok (.data 0x80#8) ∧
      (running .ready [.bus (.data 0x80#8)] [.success]).seq = .bus (.data 0x80#8) :: [] :=
  ⟨⟨rfl, rfl, rfl, rfl⟩, rfl, rfl, rfl, rfl⟩

theorem witness_CenteredTextStaysInItsCells :
    exampleFont.ok ∧ 0x0A ∉ [72, 73] ∧
      Instr.setPixel 58#16 25#16 true ∈ drawStringCentered .deg0 exampleFont [72, 73] 25 true := by
  refine ⟨⟨by decide, ?_⟩, by decide, by decide⟩
  intro c cx cy on p hp
  simp only [exampleFont, List.mem_singleton] at hp ⊢
  subst hp
  simp

/-- V91's text and its first line; V92's `ABC` at 120, whose first cell lies inside and whose second (at 126) does not. -/
theorem witness_TextIsDrawnCharacterByCharacterAndLineByLine :
    ((0x0A ∉ [65]) ∧ 65 ≠ 0x0A ∧ 0x0A ∉ [66, 67]) ∧
      cellInside .deg0 exampleFont 65 120 0 ∧ ¬ cellInside .deg0 exampleFont 66 126 0 ∧
      drawString .deg0 exampleFont [65, 66, 67] 120 0 true ≠ [] := by decide

/-- V90 and V95: a string shorter and one longer than the panel, and one as wide. -/
theorem witness_CenterTruncatesTowardZero : (11 : Int) ≤ 128 ∧ (128 : Int) ≤ 131 ∧ (128 : Int) ≤ 128 := by decide

/-- Each of the three reasons why no sequence runs. -/
theorem witness_BusCommandsStopOutsideASequence :
    Instr.displayOff.isBus = true ∧ (asked { req := 0x0005#16 }).busy = false ∧ State.reset.txh = false ∧
      shut.cstate ∈ [CState.uninitialized, .closed, .configFailed] := by decide

theorem witness_HostOperationsInBusyStatesRecordNotReady :
    Instr.getWidth.isBus = false ∧ State.reset.cstate ∈ [CState.uninitialized, .initializing, .shuttingDown] ∧
      lastBlock.cstate ∈ [CState.uninitialized, .initializing, .shuttingDown] := by decide

end Sys2Proof.Tests
end

section
/-! PROOFS. The pixel unit bit by bit: PixelWrite changes only its own bit (R144), reads back (R146), and is idempotent and
commutes with the others (R145). -/

namespace Sys2Proof.Machine

/-- Setting or clearing a byte under a pixel's mask changes the pixel's bit only (R141). -/
theorem getLsbD_setOrClear_pixelMask (v : Byte) (py : Int) (on : Bool) (b : Nat) :
    (if on then v ||| pixelMask py else v &&& ~~~(pixelMask py)).getLsbD b =
      if b = py.toNat % 8 then on else v.getLsbD b := by
  by_cases h8 : b < 8
  · cases on <;> by_cases hb : b = py.toNat % 8 <;>
      simp [BitVec.getLsbD_or, BitVec.getLsbD_and, BitVec.getLsbD_not, getLsbD_pixelMask, h8, hb, -BitVec.getLsbD_eq_getElem]
  · rw [BitVec.getLsbD_of_ge _ _ (by omega), BitVec.getLsbD_of_ge _ _ (by omega), if_neg (by omega)]

/-- A bit of FB after a pixel write: the value written at the pixel's own index and bit, the old bit at any other (R141, R142). -/
theorem getLsbD_read_pixelWrite {fb : Memory} (h : fb.wf) (px py : Int) (on : Bool) (k b : Nat) :
    ((pixelWrite px py on fb).read k).getLsbD b =
      if inPhysical px py ∧ k = pixelPos px py ∧ b = py.toNat % 8 then on else (fb.read k).getLsbD b := by
  rw [read_pixelWrite h]
  by_cases hk : inPhysical px py ∧ k = pixelPos px py
  · rw [if_pos hk, getLsbD_setOrClear_pixelMask]
    exact if_congr ⟨fun hb => ⟨hk.1, hk.2, hb⟩, fun hc => hc.2.2⟩ rfl rfl
  · rw [if_neg hk, if_neg fun hc => hk ⟨hc.1, hc.2.1⟩]

/-- Framebuffers with the same bits are equal. -/
theorem Memory.ext_bits_of_fbWf {m n : Memory} (hm : m.fbWf) (hn : n.fbWf)
    (h : ∀ k b, (m.read k).getLsbD b = (n.read k).getLsbD b) : m = n :=
  Memory.ext_of_fbWf hm hn fun k _ => BitVec.eq_of_getLsbD_eq fun b _ => h k b

/-- Of two writes of one pixel the later one counts. -/
theorem pixelWrite_pixelWrite_same {fb : Memory} (h : fb.fbWf) (px py : Int) (a b : Bool) :
    pixelWrite px py b (pixelWrite px py a fb) = pixelWrite px py b fb := by
  have ha : (pixelWrite px py a fb).fbWf := pixelWrite_fbWf h px py a
  refine Memory.ext_bits_of_fbWf (pixelWrite_fbWf ha ..) (pixelWrite_fbWf h ..) fun k j => ?_
  simp only [getLsbD_read_pixelWrite ha.1, getLsbD_read_pixelWrite h.1]
  split <;> rfl

/-- Different pixels have no bit of FB in common, so their writes commute. -/
theorem pixelWrite_comm {fb : Memory} (h : fb.fbWf) {px py qx qy : Int} (hne : (px, py) ≠ (qx, qy)) (a b : Bool) :
    pixelWrite px py a (pixelWrite qx qy b fb) = pixelWrite qx qy b (pixelWrite px py a fb) := by
  have hp : (pixelWrite px py a fb).fbWf := pixelWrite_fbWf h px py a
  have hq : (pixelWrite qx qy b fb).fbWf := pixelWrite_fbWf h qx qy b
  refine Memory.ext_bits_of_fbWf (pixelWrite_fbWf hq ..) (pixelWrite_fbWf hp ..) fun k j => ?_
  simp only [getLsbD_read_pixelWrite hp.1, getLsbD_read_pixelWrite hq.1, getLsbD_read_pixelWrite h.1]
  by_cases hkp : inPhysical px py ∧ k = pixelPos px py ∧ j = py.toNat % 8
  · have hkq : ¬ (inPhysical qx qy ∧ k = pixelPos qx qy ∧ j = qy.toNat % 8) := by
      rintro ⟨hin, hk, hj⟩
      obtain ⟨hx, hy⟩ := pixelPos_inj hkp.1 hin (hkp.2.1.symm.trans hk) (hkp.2.2.symm.trans hj)
      exact hne (Prod.ext hx hy)
    rw [if_pos hkp, if_neg hkq, if_pos hkp]
  · rw [if_neg hkp, if_neg hkp]

/-- Settles O8: every index and bit but the pixel's own falls in the unchanged case of `getLsbD_read_pixelWrite`. -/
theorem pixelWriteChangesOnlyItsBit : Obligations.PixelWriteChangesOnlyItsBit := by
  intro fb px py on k b h hne
  rw [getLsbD_read_pixelWrite h.1, if_neg fun hc => hne hc.2]

/-- Settles O9: the written case of `getLsbD_read_pixelWrite`. -/
theorem pixelWriteReadsBack : Obligations.PixelWriteReadsBack := by
  intro fb px py on h hx hy
  have hin : inPhysical px py := by refine ⟨?_, ?_, ?_, ?_⟩ <;> omega
  rw [getLsbD_read_pixelWrite h.1, if_pos ⟨hin, rfl, rfl⟩]

/-- Settles O10: the same-value clause is the different-value one at `b = a`. -/
theorem pixelWritesAreIdempotentAndCommute : Obligations.PixelWritesAreIdempotentAndCommute :=
  fun _ px py _ _ a b h =>
    ⟨pixelWrite_pixelWrite_same h px py a a, pixelWrite_pixelWrite_same h px py a b, fun hne => pixelWrite_comm h hne a b⟩

end Sys2Proof.Machine
end

section
/-! PROOFS. The rotation transform: a bijection of the logical panel onto the native panel (R162), and the physical pixel that
SET_PIXEL sets in each orientation (R165). -/

namespace Sys2Proof.Machine

/-! ## The transform in the native panel's own numbers (R165) -/

theorem rot_deg0 (x y : Int) : rot .deg0 x y = (x, y) := rfl

theorem rot_deg90 (x y : Int) : rot .deg90 x y = (y, 63 - x) :=
  Prod.ext rfl (by simp only [rot, logicalWidth]; omega)

theorem rot_deg180 (x y : Int) : rot .deg180 x y = (127 - x, 63 - y) :=
  Prod.ext (by simp only [rot, logicalWidth]; omega) (by simp only [rot, logicalHeight]; omega)

theorem rot_deg270 (x y : Int) : rot .deg270 x y = (127 - y, x) :=
  Prod.ext (by simp only [rot, logicalHeight]; omega) rfl

/-! ## The bijection (R162) -/

/-- Bounds are preserved both ways: each output coordinate is an input coordinate, or 127 or 63 minus one (R162). -/
theorem inLogical_iff_inPhysical_rot (o : Orient) (x y : Int) :
    inLogical o x y ↔ inPhysical (rot o x y).1 (rot o x y).2 := by
  cases o <;> simp only [rot_deg0, rot_deg90, rot_deg180, rot_deg270, inLogical, inPhysical, logicalWidth, logicalHeight] <;>
    omega

/-- `unrot` is a left inverse, so no two logical points share a physical one (R162, R168). -/
theorem rot_inj {o : Orient} {x y u v : Int} (h : rot o x y = rot o u v) : x = u ∧ y = v := by
  have hxy : (x, y) = (u, v) := by rw [← unrot_rot o x y, h, unrot_rot]
  exact Prod.mk.inj hxy

/-- The logical point shown at a pixel of the native panel lies on the logical panel (R168). -/
theorem inLogical_unrot {px py : Int} (h : inPhysical px py) (o : Orient) :
    inLogical o (unrot o px py).1 (unrot o px py).2 := by
  rw [inLogical_iff_inPhysical_rot, rot_unrot]
  exact h

/-- PixelWrite drops a write outside the native panel (R142). -/
theorem pixelWrite_of_not_inPhysical {px py : Int} (h : ¬ inPhysical px py) (on : Bool) (fb : Memory) :
    pixelWrite px py on fb = fb := if_neg h

/-- The bounds check on the physical pixel drops a write outside the logical panel (R162). -/
theorem plot_of_not_inLogical {o : Orient} {x y : Int} (h : ¬ inLogical o x y) (on : Bool) (fb : Memory) :
    plot o x y on fb = fb :=
  pixelWrite_of_not_inPhysical (mt (inLogical_iff_inPhysical_rot o x y).mpr h) on fb

/-- Settles O6: one to one by `unrot_rot`, onto by `rot_unrot`, and both with the bounds by `inLogical_iff_inPhysical_rot`. -/
theorem rotationIsABijectionOfThePanels : Obligations.RotationIsABijectionOfThePanels := fun o =>
  ⟨inLogical_iff_inPhysical_rot o, fun _ _ _ _ => rot_inj,
    fun px py h => ⟨_, _, inLogical_unrot h o, rot_unrot o px py⟩, fun _ _ on fb h => plot_of_not_inLogical h on fb⟩

/-! ## SET_PIXEL through the transform (R163, R165) -/

/-- A pixel of the native panel reads the value just written to it (R146). -/
theorem pixelAt_pixelWrite_same {fb : Memory} (hfb : fb.wf) {px py : Int} (h : inPhysical px py) (on : Bool) :
    pixelAt (pixelWrite px py on fb) px py = on := by
  unfold pixelAt
  rw [getLsbD_read_pixelWrite hfb, if_pos ⟨h, rfl, rfl⟩]

/-- A pixel of the logical panel, read where it is shown, has the value just plotted there. -/
theorem logicalPixelAt_plot_same {fb : Memory} (hfb : fb.wf) {o : Orient} {x y : Int} (h : inLogical o x y) (on : Bool) :
    logicalPixelAt o (plot o x y on fb) x y = on :=
  pixelAt_pixelWrite_same hfb ((inLogical_iff_inPhysical_rot o x y).mp h) on

/-- In Ready SET_PIXEL runs its rule: every operation is legal there (R306). -/
theorem exec_setPixel_of_ready {s : State} (h : s.cstate = .ready) (x y : Word) (on : Bool) :
    exec (.setPixel x y on) s = .next (s.setPixelRule x y on) :=
  whenLegal_of_legal (State.setPixelRule x y on) (by rw [h]; rfl)

@[simp] theorem State.setPixelRule_fb (x y : Word) (on : Bool) (s : State) :
    (s.setPixelRule x y on).fb = plot s.cfgOrient x.toInt y.toInt on s.fb := rfl

/-- Settles O7: the plotted pixel reads back where the transform shows it, and the transform is written out per orientation. -/
theorem rotatedPixelsLandWhereTheRuleSays : Obligations.RotatedPixelsLandWhereTheRuleSays := by
  intro s x y on hready hfb hin
  refine ⟨_, exec_setPixel_of_ready hready x y on, ?_⟩
  have hpixel := logicalPixelAt_plot_same hfb.1 hin on
  rw [State.setPixelRule_fb]
  unfold logicalPixelAt at hpixel
  cases ho : s.cfgOrient <;> rw [ho] at hpixel
  · rwa [rot_deg0] at hpixel
  · rwa [rot_deg90] at hpixel
  · rwa [rot_deg180] at hpixel
  · rwa [rot_deg270] at hpixel

end Sys2Proof.Machine
end

section
/-! PROOFS. The drawing operations: what a repaint leaves of a pixel and of a byte, and from it the clipping law of CLEAR_RECT
(R182), the image law of DRAW_IMAGE (R187), and the rounding of `center` (R201). -/

namespace Sys2Proof.Machine

/-! ## What a repaint leaves -/

/-- A pixel of the native panel is the one found at its index and bit (R37): `pixelPos_of_index` the other way round. -/
theorem pixel_of_pixelPos {px py : Int} (h : inPhysical px py) :
    ((pixelPos px py % 128 : Nat) : Int) = px ∧ ((8 * (pixelPos px py / 128) + py.toNat % 8 : Nat) : Int) = py := by
  unfold pixelPos
  omega

/-- A logical pixel of the panel takes the value the repaint gives it. -/
theorem logicalPixelAt_repaint {o : Orient} {u v : Int} (h : inLogical o u v) (f : Int → Int → Bool → Bool) (fb : Memory) :
    logicalPixelAt o (repaint o f fb) u v = f u v (logicalPixelAt o fb u v) := by
  have hin := (inLogical_iff_inPhysical_rot o u v).mp h
  obtain ⟨hx, hy⟩ := pixel_of_pixelPos hin
  unfold logicalPixelAt pixelAt
  rw [getLsbD_read_repaint o f fb (pixelPos_lt hin) (Nat.mod_lt _ (by decide)), hx, hy, unrot_rot]

/-- A byte reads as before when the repaint keeps every pixel it holds. -/
theorem read_repaint_of_keeps {fb : Memory} (hfb : fb.fbWf) {o : Orient} {f : Int → Int → Bool → Bool} {a : Nat}
    (hkeep : ∀ u v, inLogical o u v → a = pixelPos (rot o u v).1 (rot o u v).2 → ∀ old, f u v old = old) :
    (repaint o f fb).read a = fb.read a := by
  by_cases ha : a < 1024
  · refine BitVec.eq_of_getLsbD_eq fun b hb => ?_
    rw [getLsbD_read_repaint o f fb ha hb]
    refine hkeep _ _ (inLogical_unrot (inPhysical_of_index ha hb) o) ?_ _
    rw [rot_unrot, pixelPos_of_index a b hb]
  · rw [Memory.read_of_fbWf (repaint_fbWf o f fb) (by omega), Memory.read_of_fbWf hfb (by omega)]

/-! ## Operations in Ready (R107) -/

/-- In Ready every operation runs its rule (R107, R306). -/
theorem whenLegal_of_ready {s : State} (h : s.cstate = .ready) (op : Byte) (rule : State → State) :
    whenLegal op s rule = .next (rule s) :=
  whenLegal_of_legal rule (by rw [h]; rfl)

/-- The end of an operation that leaves `fb'` in FB, field by field (R107, R301). -/
theorem State.complete_withFb (s : State) (fb' : Memory) :
    State.complete .ok 0#16 { s with fb := fb' } =
      { s with
        fb := fb', respCode := .ok, respData := 0#16,
        responses := s.responses ++ [⟨s.requester, .ok, 0#16⟩], busy := false } := rfl

/-! ## CLEAR_RECT, FILL_RECT and ERASE_RECT (R182) -/

/-- In Ready CLEAR_RECT, and the pseudo-operation that stands for it at that `on`, run the rule of CLEAR_RECT (R109, R181). -/
theorem exec_rectangle_of_ready {s : State} (hready : s.cstate = .ready) (x y w h : Word) (on : Bool) :
    ∀ i ∈ [Instr.clearRect x y w h on, if on then Instr.fillRect x y w h else Instr.eraseRect x y w h],
      exec i s =
        .next (State.complete .ok 0#16
          { s with fb := fillRectangle s.cfgOrient x.toInt y.toInt w.toInt h.toInt on s.fb }) := by
  have hrule := whenLegal_of_ready hready 0x03#8 (State.clearRectRule x y w h on)
  intro i hi
  rcases List.mem_pair.mp hi with rfl | rfl
  · exact hrule
  · cases on <;> exact hrule

/-- Settles O14: the pixels by `logicalPixelAt_repaint`, the bytes outside the rectangle by `read_repaint_of_keeps`. -/
theorem clearRectWritesTheClippedRectangle : Obligations.ClearRectWritesTheClippedRectangle := by
  intro s x y w h on hready hfb
  refine ⟨fillRectangle s.cfgOrient x.toInt y.toInt w.toInt h.toInt on s.fb, fun i hi => ?_, fillRectangle_fbWf ..,
    fun u v hin => logicalPixelAt_repaint hin _ s.fb, fun a houtside => read_repaint_of_keeps hfb fun u v hin ha old => ?_⟩
  · rw [exec_rectangle_of_ready hready x y w h on i hi, State.complete_withFb]
  · exact if_neg fun hinside => houtside u v hin hinside ha

/-! ## DRAW_IMAGE (R187) -/

/-- In Ready DRAW_IMAGE completes with the bitmap laid over FB (R186). -/
theorem exec_drawImage_of_ready {s : State} (h : s.cstate = .ready) (img : Image) (x y : Word) :
    exec (.drawImage img x y) s =
      .next (State.complete .ok 0#16 { s with fb := blit s.cfgOrient img x.toInt y.toInt s.fb }) :=
  whenLegal_of_ready h 0x04#8 fun s =>
    State.complete .ok 0#16 { s with fb := blit s.cfgOrient img (sext16 x) (sext16 y) s.fb }

/-- A bitmap laid over FB at `0, 0` covers the logical panel: each pixel is its bitmap pixel, whatever FB held. -/
theorem logicalPixelAt_blit_origin (o : Orient) (img : Image) (fb : Memory) {col row : Nat} (hcol : col < logicalWidth o)
    (hrow : row < logicalHeight o) :
    logicalPixelAt o (blit o img 0 0 fb) col row = imgBit img (row * logicalWidth o + col) := by
  have hin : inLogical o col row := by refine ⟨?_, ?_, ?_, ?_⟩ <;> omega
  unfold blit
  rw [logicalPixelAt_repaint hin, if_pos (by omega)]
  simp only [Int.sub_zero, Int.toNat_natCast]

/-- At 0° bit `b` of byte `c + 128p` is the logical pixel `(c, 8p + b)` (R37). -/
theorem logicalPixelAt_deg0 (fb : Memory) {c p b : Nat} (hc : c < 128) (hb : b < 8) :
    logicalPixelAt .deg0 fb c (8 * p + b : Nat) = (fb.read (c + 128 * p)).getLsbD b := by
  have hcol : (c + 128 * p) % 128 = c := by omega
  have hpage : (c + 128 * p) / 128 = p := by omega
  rw [← pixelAt_of_index fb hb, hcol, hpage]
  rfl

/-- Settles O18: the 0° sentence is the general one at the row `8p + b`, read in its byte. -/
theorem imageLaw : Obligations.ImageLaw := by
  intro s img hready _
  refine ⟨_, exec_drawImage_of_ready hready img 0#16 0#16, ?_⟩
  simp only [State.complete_fb, BitVec.toInt_zero]
  refine ⟨fun col row hcol hrow => logicalPixelAt_blit_origin s.cfgOrient img s.fb hcol hrow, fun ho c p b hc hp hb => ?_⟩
  have hrow : 8 * p + b < 64 := by omega
  rw [← logicalPixelAt_deg0 _ hc hb, ho]
  exact logicalPixelAt_blit_origin .deg0 img s.fb hc hrow

/-! ## Centering (R201) -/

/-- Settles O58: the quotient truncated toward zero is the floor of a difference that is not negative, and minus the floor of
the opposite difference of one that is not positive. -/
theorem centerTruncatesTowardZero : Obligations.CenterTruncatesTowardZero := by
  refine ⟨fun lw sw hle => ?_, fun lw sw hle => ?_, by decide, by decide⟩
  · have hfloor : center lw sw = (lw - sw) / 2 := Int.tdiv_eq_ediv_of_nonneg (by omega)
    omega
  · have hfloor : center lw sw = -((sw - lw) / 2) := by
      rw [← Int.tdiv_eq_ediv_of_nonneg (by omega), ← Int.neg_tdiv, Int.neg_sub, center]
    omega

end Sys2Proof.Machine
end

section
/-! PROOFS. The refresh protocols: what the items of each sequence issue is the list the rules give (R242 to R247), of which the
transaction at each ordinal (R244, R249) and the stream of data bytes (R251) are read off. -/

namespace Sys2Proof.Machine

/-! ## The refresh sequences issue the transactions of the rules (R242, R243, R247) -/

/-- The page-select opcode of R134 is the sum R247 writes. -/
theorem pageStart_opcode : ∀ p < 8, 0b10110#5 ++ BitVec.ofNat 3 p = 0xB0#8 + BitVec.ofNat 8 p := by decide

/-- Data bytes issued one at a time are one `Dat` each (R112). -/
theorem itemTransactions_dataBytes (bs : List Byte) :
    (bs.map fun b => SeqItem.bus (.data b)).flatMap itemTransactions = bs.map dat := by
  rw [List.flatMap_map, List.map_eq_flatMap]
  rfl

/-- Blocks are one `Blk` each (R20). -/
theorem itemTransactions_blocks (f : Nat → List Byte) (l : List Nat) :
    (l.map fun c => SeqItem.block (f c)).flatMap itemTransactions = l.map fun c => blk (f c) := by
  rw [List.flatMap_map, List.map_eq_flatMap]
  rfl

/-- The sequence of the configured mode issues what the rules of that mode list (R240). -/
theorem refreshIssues_eq_refreshTransactions (m : AMode) (tx : PageTx) (fb : Memory) :
    refreshIssues m tx fb = refreshTransactions m tx fb := by
  cases m with
  | horizontal =>
    show (refreshH fb).flatMap itemTransactions = horizontalTransactions fb
    rw [refreshH, List.flatMap_append, itemTransactions_blocks fun c => fb.bytes (16 * c) 16]
    rfl
  | page =>
    show (refreshP tx fb).flatMap itemTransactions = pageTransactions tx fb
    rw [refreshP, pageTransactions, List.flatMap_assoc]
    refine List.flatMap_congr fun p hp => ?_
    rw [List.flatMap_append, ← pageStart_opcode p (List.mem_range.mp hp)]
    refine congrArg₂ (· ++ ·) rfl ?_
    cases tx with
    | single => exact (itemTransactions_dataBytes _).trans List.map_map
    | block => rfl

/-! ## The transaction at each ordinal (R244, R249) -/

/-- Position `j` of part `p` of a list made of parts of one length `L`. -/
theorem getElem?_flatMap_range {α : Type} {f : Nat → List α} {L : Nat} (hL : ∀ p, (f p).length = L) {n p j : Nat}
    (hp : p < n) (hj : j < L) : ((List.range n).flatMap f)[L * p + j]? = (f p)[j]? := by
  induction n with
  | zero => omega
  | succ n ih =>
    have hlen : ((List.range n).flatMap f).length = L * n := by simp [List.length_flatMap, hL, Nat.mul_comm]
    rw [List.range_succ, List.flatMap_append, List.flatMap_singleton]
    by_cases hpn : p < n
    · have hbefore : L * p + j < L * n := by
        calc L * p + j < L * p + L := by omega
          _ = L * (p + 1) := rfl
          _ ≤ L * n := Nat.mul_le_mul_left L hpn
      rw [List.getElem?_append_left (by omega), ih hpn]
    · obtain rfl : p = n := by omega
      rw [List.getElem?_append_right (by omega), hlen, Nat.add_sub_cancel_left]

/-- Settles O33: block `c` stands right after the 6 command writes of the two ranges. -/
theorem horizontalRefreshHasSeventyTransactions : Obligations.HorizontalRefreshHasSeventyTransactions := by
  intro tx fb
  rw [refreshIssues_eq_refreshTransactions]
  refine ⟨by simp [refreshTransactions, horizontalTransactions], fun k hk => ?_, fun c hc => ?_⟩
  · exact List.getElem?_append_left hk
  · refine (List.getElem?_append_right (Nat.le_add_right 6 c)).trans ?_
    simp [hc, blk, Memory.bytes]

/-- The page select and the two column resets before the data of page `p` (R247). -/
def pageSelect (p : Nat) : List Transaction := [cmd (0xB0#8 + BitVec.ofNat 8 p), cmd 0x00#8, cmd 0x10#8]

/-- `RefreshP()` byte by byte is its 8 pages (R247). -/
theorem pageTransactions_single (fb : Memory) :
    pageTransactions .single fb =
      (List.range 8).flatMap fun p => pageSelect p ++ (List.range 128).map fun c => dat (fb.read (128 * p + c)) := rfl

/-- `RefreshP()` by blocks is its 8 pages (R247). -/
theorem pageTransactions_block (fb : Memory) :
    pageTransactions .block fb = (List.range 8).flatMap fun p => pageSelect p ++ [blk (fb.bytes (128 * p) 128)] := rfl

/-- Byte by byte, transaction `j` of page `p` is at ordinal `131p + j` (R249). -/
theorem getElem?_pageTransactions_single (fb : Memory) {p j : Nat} (hp : p < 8) (hj : j < 131) :
    (pageTransactions .single fb)[131 * p + j]? =
      (pageSelect p ++ (List.range 128).map fun c => dat (fb.read (128 * p + c)))[j]? := by
  rw [pageTransactions_single, getElem?_flatMap_range (by simp [pageSelect]) hp hj]

/-- By blocks, transaction `j` of page `p` is at ordinal `4p + j` (R249). -/
theorem getElem?_pageTransactions_block (fb : Memory) {p j : Nat} (hp : p < 8) (hj : j < 4) :
    (pageTransactions .block fb)[4 * p + j]? = (pageSelect p ++ [blk (fb.bytes (128 * p) 128)])[j]? := by
  rw [pageTransactions_block, getElem?_flatMap_range (by simp [pageSelect]) hp hj]

/-- Settles O34: page `p` is the part of 131 or of 4 transactions that begins at `131p` or `4p`, and `pageSelect` its first 3. -/
theorem pageRefreshHasItsTransactionCounts : Obligations.PageRefreshHasItsTransactionCounts := by
  intro fb
  simp only [refreshIssues_eq_refreshTransactions, refreshTransactions]
  refine ⟨?_, ?_, fun p hp c hc => ⟨?_, ?_, ?_, ?_⟩, fun p hp => ⟨?_, ?_, ?_, ?_⟩⟩
  · simp [pageTransactions_single, List.length_flatMap, pageSelect]
  · simp [pageTransactions_block, List.length_flatMap, pageSelect]
  · exact getElem?_pageTransactions_single fb hp (j := 0) (by decide)
  · exact getElem?_pageTransactions_single fb hp (j := 1) (by decide)
  · exact getElem?_pageTransactions_single fb hp (j := 2) (by decide)
  · rw [Nat.add_assoc, getElem?_pageTransactions_single fb hp (by omega),
      List.getElem?_append_right (Nat.le_add_right 3 c)]
    simp [pageSelect, hc, dat]
  · exact getElem?_pageTransactions_block fb hp (j := 0) (by decide)
  · exact getElem?_pageTransactions_block fb hp (j := 1) (by decide)
  · exact getElem?_pageTransactions_block fb hp (j := 2) (by decide)
  · exact getElem?_pageTransactions_block fb hp (j := 3) (by decide)

/-! ## The stream of data bytes (R251) -/

theorem dataBytes_append (ts us : List Transaction) : dataBytes (ts ++ us) = dataBytes ts ++ dataBytes us :=
  List.flatMap_append

theorem dataBytes_flatMap (f : Nat → List Transaction) (l : List Nat) :
    dataBytes (l.flatMap f) = l.flatMap fun p => dataBytes (f p) :=
  List.flatMap_assoc

theorem dataBytes_blk (bs : List Byte) : dataBytes [blk bs] = bs := List.append_nil bs

theorem dataBytes_dats (f : Nat → Byte) (l : List Nat) : dataBytes (l.map fun c => dat (f c)) = l.map f := by
  rw [dataBytes, List.flatMap_map, List.map_eq_flatMap]
  rfl

/-- A page's opening commands write nothing to the data register. -/
theorem dataBytes_pageSelect (p : Nat) : dataBytes (pageSelect p) = [] := rfl

/-- `n` consecutive runs of `L` bytes are FB's first `L * n` bytes. -/
theorem bytes_flatMap_range (fb : Memory) (L n : Nat) :
    ((List.range n).flatMap fun p => fb.bytes (L * p) L) = (List.range (L * n)).map fun a => fb.read a := by
  induction n with
  | zero => rfl
  | succ n ih =>
    rw [List.range_succ, List.flatMap_append, List.flatMap_singleton, ih, Nat.mul_succ, List.range_add, List.map_append,
      List.map_map]
    rfl

/-- Settles O35: the data bytes are 64 runs of 16 bytes or 8 pages of 128, and either way FB's first 1024. -/
theorem dataStreamLaw : Obligations.DataStreamLaw := by
  intro m tx fb
  rw [refreshIssues_eq_refreshTransactions]
  cases m with
  | horizontal =>
    show dataBytes (horizontalTransactions fb) = _
    rw [horizontalTransactions, dataBytes_append, List.map_eq_flatMap, dataBytes_flatMap]
    simp only [dataBytes_blk]
    exact bytes_flatMap_range fb 16 64
  | page =>
    cases tx with
    | single =>
      show dataBytes (pageTransactions .single fb) = _
      rw [pageTransactions_single, dataBytes_flatMap]
      simp only [dataBytes_append, dataBytes_pageSelect, dataBytes_dats, List.nil_append]
      exact bytes_flatMap_range fb 128 8
    | block =>
      show dataBytes (pageTransactions .block fb) = _
      rw [pageTransactions_block, dataBytes_flatMap]
      simp only [dataBytes_append, dataBytes_pageSelect, dataBytes_blk, List.nil_append]
      exact bytes_flatMap_range fb 128 8

end Sys2Proof.Machine
end

section
/-! PROOFS. SHUTDOWN where there is nothing left to shut down: in Closed and in ConfigFailed (R277). -/

namespace Sys2Proof.Machine

/-- SHUTDOWN is one of the operations that stay legal in Closed and in ConfigFailed (R306). -/
theorem legal_shutdown_of_closed_or_configFailed {c : CState} (h : c = .closed ∨ c = .configFailed) :
    legal 0x06#8 c = true := by
  rcases h with rfl | rfl <;> decide

/-- There is nothing to clear, flush or release in Closed and in ConfigFailed: SHUTDOWN only responds (R277). -/
theorem State.shutdownRule_of_closed_or_configFailed {s : State} (h : s.cstate = .closed ∨ s.cstate = .configFailed) :
    s.shutdownRule = s.complete .ok 0#16 := by
  rcases h with h | h <;> simp only [State.shutdownRule, h]

/-- Settles O42: in both states SHUTDOWN is legal and its rule is the bare response OK. -/
theorem shutdownAfterClosedIsANoOp : Obligations.ShutdownAfterClosedIsANoOp := by
  intro s hs
  have hend : s.cstate = .closed ∨ s.cstate = .configFailed := List.mem_pair.mp hs
  calc exec .shutdown s
    _ = .next s.shutdownRule := whenLegal_of_legal State.shutdownRule (legal_shutdown_of_closed_or_configFailed hend)
    _ = .next (s.complete .ok 0#16) := by rw [State.shutdownRule_of_closed_or_configFailed hend]
    _ = _ := by rw [State.complete, State.respond]

end Sys2Proof.Machine
end

section
/-! PROOFS. The encodings: decoding undoes encoding for every instruction (R105, R109, R110), and for the command bytes of a trace
by position (R111); which requests are reserved (R106), and which operands are read (R102). -/

namespace Sys2Proof

/-! ## The fields of REQ (R101) -/

@[simp] theorem reqOp_reqWord (op : Byte) (on : Bool) (x y w h : Word) (img : Image) :
    reqOp ⟨reqWord op on, x, y, w, h, img⟩ = op :=
  (BitVec.extractLsb'_append_eq_of_add_le (by decide)).trans BitVec.extractLsb'_append_eq_right

@[simp] theorem reqOn_reqWord (op : Byte) (on : Bool) (x y w h : Word) (img : Image) :
    reqOn ⟨reqWord op on, x, y, w, h, img⟩ = on := by
  unfold reqOn reqWord
  rw [BitVec.getLsbD_append, if_pos (by decide), BitVec.getLsbD_append, if_neg (by decide)]
  cases on <;> rfl

@[simp] theorem reqRsv_reqWord (op : Byte) (on : Bool) (x y w h : Word) (img : Image) :
    reqRsv ⟨reqWord op on, x, y, w, h, img⟩ = 0#7 :=
  BitVec.extractLsb'_append_eq_left

/-- OP as a number. -/
theorem reqOp_eq_iff (r : Request) (b : Byte) : reqOp r = b ↔ r.req.toNat % 256 = b.toNat := by
  rw [← BitVec.toNat_inj]
  simp [reqOp]

/-- RSV as a number. -/
theorem reqRsv_eq_zero_iff (r : Request) : reqRsv r = 0#7 ↔ r.req.toNat / 512 = 0 := by
  have hlt := r.req.isLt
  rw [← BitVec.toNat_inj]
  simp only [reqRsv, BitVec.extractLsb'_toNat, Nat.shiftRight_eq_div_pow, BitVec.toNat_ofNat]
  omega

/-! ## Decoding undoes encoding (O1, O2) -/

/-- A field of `w` bits is one of the numbers below `2 ^ w`. -/
theorem exists_eq_ofNat {w : Nat} (v : BitVec w) : ∃ k < 2 ^ w, v = BitVec.ofNat w k :=
  ⟨v.toNat, v.isLt, by simp⟩

/-- The opcode byte and arguments of a bus command decode to it, whatever bytes follow (R111): shape (a) at each value of the
field in its opcode byte, shapes (b) and (c) by reading the arguments off (R110). -/
theorem decodeOpcode_of_encode {i : Instr} {bytes : List Byte} (h : encode i = .command bytes) :
    ∃ b args, bytes = b :: args ∧ ∀ rest, decodeOpcode b (args ++ rest) = .ok (i, rest) := by
  cases i <;> cases h
  case setStartLine v | segmentRemap v | comScanDir v | setPageStart v | setColLow v | setColHigh v =>
    obtain ⟨k, hk, rfl⟩ := exists_eq_ofNat v
    refine ⟨_, [], rfl, fun rest => ?_⟩
    interval_cases k <;> rfl
  all_goals exact ⟨_, _, rfl, fun _ => rfl⟩

/-- A bus command that is no data byte travels as its command bytes on register 0x00 (R110). -/
theorem encode_of_isBus {i : Instr} (h : i.isBus = true) (hdata : ∀ d, i ≠ .data d) :
    encode i = .command (commandBytes i) := by
  cases i <;> cases h
  case data d => exact absurd rfl (hdata d)
  all_goals rfl

/-- The words of a bus command, taken alone, decode to it (R110). -/
theorem decode_command_of_encode {i : Instr} {bytes : List Byte} (h : encode i = .command bytes) :
    decode (.command bytes) = .ok i := by
  obtain ⟨b, args, rfl, hdecode⟩ := decodeOpcode_of_encode h
  have halone : decodeCommand (b :: args) = .ok (i, []) := by simpa [decodeCommand] using hdecode []
  simp only [decode, halone]

/-- The words of a host operation decode to its core operation (R105, R109). -/
theorem decodeRequest_of_encode {i : Instr} {r : Request} (h : encode i = .request r) : decodeRequest r = .ok i.core := by
  cases i <;> cases h <;> simp [decodeRequest, Instr.core]

/-- Settles O1: each channel of `encode` has its own lemma. -/
theorem decodeOfEncodeIsTheCoreInstruction : Obligations.DecodeOfEncodeIsTheCoreInstruction := by
  intro i
  cases h : encode i with
  | request r => exact decodeRequest_of_encode h
  | command bytes =>
    have hcore : i.core = i := by cases i <;> cases h <;> rfl
    rw [hcore]
    exact decode_command_of_encode h
  | data d => cases i <;> cases h; rfl

/-- Settles O2, by induction on the commands: the first one's bytes decode to it and leave the bytes of the others. -/
theorem traceCommandsDecodeByPosition : Obligations.TraceCommandsDecodeByPosition := by
  intro is hbus
  induction is with
  | nil => rfl
  | cons i is ih =>
    obtain ⟨hi, hdata⟩ := hbus i List.mem_cons_self
    obtain ⟨b, args, hbytes, hdecode⟩ := decodeOpcode_of_encode (encode_of_isBus hi hdata)
    have hrest := ih fun j hj => hbus j (List.mem_cons_of_mem i hj)
    rw [List.flatMap_cons, hbytes]
    simp only [List.length_cons, List.cons_append, decodeCommands, hdecode, hrest]

/-! ## Reserved requests, unused operands (O3, O4) -/

/-- Settles O3: RSV is the part of REQ from 512 up and OP the remainder by 256, as numbers. -/
theorem requestsAreRejectedExactlyWhenReserved : Obligations.RequestsAreRejectedExactlyWhenReserved := by
  intro r
  unfold decodeRequest
  simp only [ne_eq, reqRsv_eq_zero_iff, reqOp_eq_iff, BitVec.reduceToNat]
  split_ifs <;> simp <;> omega

/-- Settles O4: at each of the eight opcodes both requests are read through the operands of R105 alone. -/
theorem unusedOperandsAreIgnored : Obligations.UnusedOperandsAreIgnored := by
  intro r r' hop hrsv hrsv' hxy hon hwh himg hlow hhigh
  simp only [decodeRequest, ne_eq, reqRsv_eq_zero_iff, reqOp_eq_iff, hrsv, hrsv', ← hop, not_true_eq_false, if_false,
    BitVec.reduceToNat]
  clear hop
  generalize r.req.toNat % 256 = op at *
  interval_cases op <;> simp_all [reqOn]

/-- Settles O5, by computation. -/
theorem wordsOfEachFormatDecode : Obligations.WordsOfEachFormatDecode := by
  unfold Obligations.WordsOfEachFormatDecode
  decide

end Sys2Proof
end

section
/-! PROOFS. The drawing operations pixel by pixel: SET_PIXEL and its pseudo-operations (R163), the loops of CLEAR_RECT and DRAW_IMAGE
(R181, R186) as one fold of pixel writes over the pixels of a rectangle, DRAW_IMAGE's completion, CLEAR and the dimension
queries. -/

namespace Sys2Proof.Machine

/-! ## One pixel (O11, O12) -/

/-- A logical pixel of the panel after one plot: the value at the plotted pixel, the old one at any other (R144, R162). -/
theorem logicalPixelAt_plot {fb : Memory} (hfb : fb.wf) {o : Orient} {u v : Int} (hin : inLogical o u v) (x y : Int)
    (on : Bool) :
    logicalPixelAt o (plot o x y on fb) u v = if u = x ∧ v = y then on else logicalPixelAt o fb u v := by
  by_cases huv : u = x ∧ v = y
  · obtain ⟨rfl, rfl⟩ := huv
    rw [logicalPixelAt_plot_same hfb hin, if_pos ⟨rfl, rfl⟩]
  · rw [if_neg huv]
    refine (getLsbD_read_pixelWrite hfb ..).trans (if_neg ?_)
    rintro ⟨hxy, hpos, hbit⟩
    obtain ⟨hx, hy⟩ := pixelPos_inj ((inLogical_iff_inPhysical_rot o u v).mp hin) hxy hpos hbit
    exact huv (rot_inj (Prod.ext hx hy))

/-- Settles O11: both halves are the pixel unit's bounds check, which sees the logical panel through the rotation (R162). -/
theorem outOfBoundsWritesAreSilentNoOps : Obligations.OutOfBoundsWritesAreSilentNoOps := by
  refine ⟨fun px py on fb h => pixelWrite_of_not_inPhysical h on fb, fun s x y on hready hout => ?_⟩
  have hfb : plot s.cfgOrient (sext16 x) (sext16 y) on s.fb = s.fb := plot_of_not_inLogical hout on s.fb
  rw [exec_setPixel_of_ready hready, State.setPixelRule, hfb]
  rfl

/-- In Ready SET_PIXEL, and the pseudo-operation that stands for it at that `on`, run the rule of SET_PIXEL (R109, R163). -/
theorem exec_pixel_of_ready {s : State} (hready : s.cstate = .ready) (x y : Word) (on : Bool) :
    ∀ i ∈ [Instr.setPixel x y on, if on then Instr.pset x y else Instr.pclr x y],
      exec i s = .next (s.setPixelRule x y on) := by
  have hrule := exec_setPixel_of_ready hready x y on
  intro i hi
  rcases List.mem_pair.mp hi with rfl | rfl
  · exact hrule
  · cases on <;> exact hrule

/-- Settles O12: the pixels by `logicalPixelAt_plot`, the other bytes by `read_pixelWrite`. -/
theorem setPixelSetsItsPixel : Obligations.SetPixelSetsItsPixel := by
  intro s x y on hready hfb
  refine ⟨plot s.cfgOrient x.toInt y.toInt on s.fb, fun i hi => ?_, plot_fbWf hfb .., fun u v hin => ?_, fun a ha => ?_⟩
  · rw [exec_pixel_of_ready hready x y on i hi]
    rfl
  · exact logicalPixelAt_plot hfb.1 hin _ _ _
  · exact (read_pixelWrite hfb.1 ..).trans (if_neg fun h => ha h.2)

/-! ## The loops (O15, O17) -/

/-- The pixels of a rectangle in the order the loops of R181 and R186 visit them. -/
def rectanglePixels (x y : Int) (w h : Nat) : List (Int × Int) :=
  (List.range h).flatMap fun (j : Nat) => (List.range w).map fun (i : Nat) => (x + (i : Int), y + (j : Int))

theorem mem_rectanglePixels {x y u v : Int} {w h : Nat} :
    (u, v) ∈ rectanglePixels x y w h ↔ x ≤ u ∧ u < x + w ∧ y ≤ v ∧ v < y + h := by
  simp only [rectanglePixels, List.mem_flatMap, List.mem_map, List.mem_range, Prod.mk.injEq]
  constructor
  · rintro ⟨j, hj, i, hi, rfl, rfl⟩
    omega
  · rintro ⟨hxu, hux, hyv, hvy⟩
    exact ⟨(v - y).toNat, by omega, (u - x).toNat, by omega, by omega, by omega⟩

/-- The pixel writes of a list of logical pixels, in order, the value of each given by its place. -/
def plotAll (o : Orient) (value : Int → Int → Bool) (pixels : List (Int × Int)) (fb : Memory) : Memory :=
  pixels.foldl (fun fb p => plot o p.1 p.2 (value p.1 p.2) fb) fb

theorem plotAll_fbWf {fb : Memory} (hfb : fb.fbWf) (o : Orient) (value : Int → Int → Bool) (pixels : List (Int × Int)) :
    (plotAll o value pixels fb).fbWf := by
  induction pixels generalizing fb with
  | nil => exact hfb
  | cons p pixels ih => exact ih (plot_fbWf hfb ..)

/-- A logical pixel of the panel after a list of plots: the value of its place if it is in the list, the old one if not. -/
theorem logicalPixelAt_plotAll {fb : Memory} (hfb : fb.fbWf) {o : Orient} {u v : Int} (hin : inLogical o u v)
    (value : Int → Int → Bool) (pixels : List (Int × Int)) :
    logicalPixelAt o (plotAll o value pixels fb) u v =
      if (u, v) ∈ pixels then value u v else logicalPixelAt o fb u v := by
  induction pixels generalizing fb with
  | nil => rfl
  | cons p pixels ih =>
    obtain ⟨x, y⟩ := p
    have hrest := ih (plot_fbWf hfb o x y (value x y))
    rw [logicalPixelAt_plot hfb.1 hin] at hrest
    refine hrest.trans ?_
    by_cases hmem : (u, v) ∈ pixels
    · simp [hmem]
    · by_cases huv : u = x ∧ v = y
      · simp [huv]
      · simp [hmem, huv]

/-- R181's loops plot the pixels of the rectangle. -/
theorem rectangleLoops_eq_plotAll (o : Orient) (x y w h : Int) (on : Bool) (fb : Memory) :
    rectangleLoops o x y w h on fb = plotAll o (fun _ _ => on) (rectanglePixels x y w.toNat h.toNat) fb := by
  simp only [rectangleLoops, plotAll, rectanglePixels, List.foldl_flatMap, List.foldl_map]

/-- R186's loops plot the pixels of the bitmap's place. -/
theorem imageLoops_eq_plotAll (o : Orient) (img : Image) (x y : Int) (fb : Memory) :
    imageLoops o img x y fb =
      plotAll o (fun u v => imgBit img ((v - y).toNat * logicalWidth o + (u - x).toNat))
        (rectanglePixels x y (logicalWidth o) (logicalHeight o)) fb := by
  simp only [imageLoops, plotAll, rectanglePixels, List.foldl_flatMap, List.foldl_map, add_sub_cancel_left, Int.toNat_natCast]

/-- Framebuffers that show the same logical panel are equal: every bit of FB is a pixel of the panel (R37, R162). -/
theorem Memory.ext_logicalPixels {m n : Memory} (hm : m.fbWf) (hn : n.fbWf) (o : Orient)
    (h : ∀ u v, inLogical o u v → logicalPixelAt o m u v = logicalPixelAt o n u v) : m = n := by
  refine Memory.ext_of_fbWf hm hn fun k hk => BitVec.eq_of_getLsbD_eq fun b hb => ?_
  have hpixel := h _ _ (inLogical_unrot (inPhysical_of_index hk hb) o)
  unfold logicalPixelAt at hpixel
  rwa [rot_unrot, pixelAt_of_index m hb, pixelAt_of_index n hb] at hpixel

/-- A repaint of the pixels of a rectangle is the plots of those pixels. -/
theorem repaint_eq_plotAll {fb : Memory} (hfb : fb.fbWf) (o : Orient) (value : Int → Int → Bool) (x y : Int) (w h : Nat) :
    repaint o (fun u v old => if x ≤ u ∧ u < x + w ∧ y ≤ v ∧ v < y + h then value u v else old) fb =
      plotAll o value (rectanglePixels x y w h) fb := by
  refine Memory.ext_logicalPixels (repaint_fbWf ..) (plotAll_fbWf hfb ..) o fun u v hin => ?_
  rw [logicalPixelAt_repaint hin, logicalPixelAt_plotAll hfb hin]
  exact if_congr mem_rectanglePixels.symm rfl rfl

/-- The clipping law and the loops of CLEAR_RECT leave the same (R181, R182); a side that is not positive has no pixels. -/
theorem fillRectangle_eq_rectangleLoops {fb : Memory} (hfb : fb.fbWf) (o : Orient) (x y w h : Int) (on : Bool) :
    fillRectangle o x y w h on fb = rectangleLoops o x y w h on fb := by
  rw [rectangleLoops_eq_plotAll, ← repaint_eq_plotAll hfb, fillRectangle]
  congr 1
  funext u v old
  exact if_congr (by omega) rfl rfl

/-- The law and the loops of DRAW_IMAGE leave the same (R186). -/
theorem blit_eq_imageLoops {fb : Memory} (hfb : fb.fbWf) (o : Orient) (img : Image) (x y : Int) :
    blit o img x y fb = imageLoops o img x y fb := by
  rw [imageLoops_eq_plotAll, ← repaint_eq_plotAll hfb]
  rfl

/-- Settles O15: `fillRectangle_eq_rectangleLoops` in what the operation completes with. -/
theorem clearRectIsTheLoopsOfItsRule : Obligations.ClearRectIsTheLoopsOfItsRule := by
  intro s x y w h on hready hfb
  rw [exec_rectangle_of_ready hready x y w h on _ List.mem_cons_self, fillRectangle_eq_rectangleLoops hfb,
    State.complete_withFb]

/-- Settles O17: `blit_eq_imageLoops` in what the operation completes with. -/
theorem drawImageIsTheLoopsOfItsRule : Obligations.DrawImageIsTheLoopsOfItsRule := by
  intro s img x y hready hfb
  rw [exec_drawImage_of_ready hready, blit_eq_imageLoops hfb, State.complete_withFb]

/-! ## DRAW_IMAGE at any offset (O16) -/

/-- Settles O16: inside and outside the bitmap's place by `logicalPixelAt_repaint`, the other bytes by `read_repaint_of_keeps`. -/
theorem drawImageCopiesTheBitmap : Obligations.DrawImageCopiesTheBitmap := by
  intro s img x y hready hfb
  refine ⟨blit s.cfgOrient img x.toInt y.toInt s.fb, ?_, blit_fbWf .., fun col row hcol hrow hin => ?_,
    fun u v hin hout => ?_, fun a ha => read_repaint_of_keeps hfb fun u v hin hpos old => ?_⟩
  · rw [exec_drawImage_of_ready hready, State.complete_withFb]
  · rw [blit, logicalPixelAt_repaint hin, if_pos (by omega), add_sub_cancel_left, add_sub_cancel_left, Int.toNat_natCast,
      Int.toNat_natCast, imgBit]
  · rw [blit, logicalPixelAt_repaint hin, if_neg (by omega)]
  · exact if_neg fun hinside => ha u v hin hinside hpos

/-! ## CLEAR and the dimension queries (O13, O19) -/

/-- Settles O13: CLEAR leaves the memory that lists nothing. -/
theorem clearZeroesEveryByte : Obligations.ClearZeroesEveryByte := fun _ hready =>
  ⟨Memory.cleared, whenLegal_of_ready hready 0x01#8 fun s => State.complete .ok 0#16 { s with fb := Memory.cleared },
    Memory.fbWf_cleared, Memory.read_cleared⟩

/-- LW as R166 answers it. -/
theorem ofNat_logicalWidth (o : Orient) :
    BitVec.ofNat 16 (logicalWidth o) = if o = .deg0 ∨ o = .deg180 then 128#16 else 64#16 := by
  cases o <;> rfl

/-- LH as R167 answers it. -/
theorem ofNat_logicalHeight (o : Orient) :
    BitVec.ofNat 16 (logicalHeight o) = if o = .deg0 ∨ o = .deg180 then 64#16 else 128#16 := by
  cases o <;> rfl

/-- The dimension queries and SHUTDOWN are legal wherever requests are accepted (R306). -/
theorem legal_of_accepting {c : CState} (hc : c ∈ [CState.ready, .closed, .configFailed]) {op : Byte}
    (hop : op ∈ [0x06#8, 0x07#8, 0x08#8]) : legal op c = true := by
  revert c op
  decide

/-- Settles O19: both queries are legal in the accepting states, and complete with LW and LH. -/
theorem dimensionQueriesAnswerTheLogicalPanel : Obligations.DimensionQueriesAnswerTheLogicalPanel := by
  intro s hs
  rw [← ofNat_logicalWidth, ← ofNat_logicalHeight]
  exact ⟨whenLegal_of_legal (fun s => s.complete .ok (BitVec.ofNat 16 (logicalWidth s.cfgOrient)))
      (legal_of_accepting hs (by decide)),
    whenLegal_of_legal (fun s => s.complete .ok (BitVec.ofNat 16 (logicalHeight s.cfgOrient)))
      (legal_of_accepting hs (by decide))⟩

end Sys2Proof.Machine
end

section
/-! PROOFS. The bus commands and the data byte: what each sends is its encoding (R110, R112), what it leaves when the transport
answers with success, and that none is sent outside a running sequence (R42, R71). -/

namespace Sys2Proof.Machine

/-! ## What is sent (O20) -/

/-- Settles O20: the meaning and the encoding lay a field into its opcode byte by different operators, equal at each value of the
field; the other bytes are written alike. -/
theorem busCommandsSendTheirEncoding : Obligations.BusCommandsSendTheirEncoding := by
  intro i bytes s h
  cases i <;> cases h
  case setStartLine v | segmentRemap v | comScanDir v | setPageStart v | setColLow v | setColHigh v =>
    refine congrArg (fun b => emitCommand [b] s) ?_
    revert v
    decide
  all_goals rfl

/-- What a bus command or data byte does: the transactions of its encoding, if a sequence runs (R110, R112). -/
theorem exec_of_isBus {i : Instr} (h : i.isBus = true) (s : State) : exec i s = emit (itemTransactions (.bus i)) s := by
  by_cases hdata : ∃ d, i = .data d
  · obtain ⟨d, rfl⟩ := hdata
    rfl
  · have hencode := encode_of_isBus h fun d hd => hdata ⟨d, hd⟩
    rw [busCommandsSendTheirEncoding i _ s hencode, itemTransactions, hencode]
    rfl

/-! ## What is left on success (O21 to O24) -/

/-- A running sequence's transactions, all answered with success. -/
theorem emit_success {ts : List Transaction} {s : State} {rest : List Answer} (hruns : s.sequenceRuns = true)
    (h : s.answers = List.replicate ts.length .success ++ rest) : emit ts s = .next (s.afterSuccess ts rest) := by
  rw [emit_of_runs ts hruns, State.issue_success ts s rest h]

/-- A bus command of a running sequence, each of its bytes answered with success. -/
theorem exec_command_success {i : Instr} {bytes : List Byte} {s : State} {rest : List Answer}
    (hencode : encode i = .command bytes) (hruns : s.sequenceRuns = true)
    (h : s.answers = List.replicate bytes.length .success ++ rest) :
    exec i s = .next (s.afterSuccess (bytes.map cmd) rest) := by
  rw [busCommandsSendTheirEncoding i bytes s hencode]
  exact emit_success hruns (by rw [List.length_map, h])

/-- Settles O21: each command's encoding is the one byte, as a sum at each value of its field. -/
theorem oneByteCommandsComplete : Obligations.OneByteCommandsComplete := by
  intro s rest l r d p c hruns hanswers e he
  have hencode : encode e.1 = .command [e.2] := by
    simp only [List.mem_cons, List.not_mem_nil, or_false] at he
    rcases he with rfl | rfl | rfl | rfl | rfl | rfl | rfl | rfl | rfl | rfl
    · rfl
    · revert l; decide
    · revert r; decide
    · revert d; decide
    · rfl
    · rfl
    · rfl
    · revert p; decide
    · revert c; decide
    · revert c; decide
  exact exec_command_success hencode hruns hanswers

/-- Settles O22: each command's encoding is its opcode and its argument. -/
theorem twoByteCommandsComplete : Obligations.TwoByteCommandsComplete := by
  intro s rest a hruns hanswers e he
  have hencode : encode e.1 = .command [e.2, a] := by
    simp only [List.mem_cons, List.not_mem_nil, or_false] at he
    rcases he with rfl | rfl | rfl | rfl | rfl | rfl | rfl | rfl | rfl <;> rfl
  exact exec_command_success hencode hruns hanswers

/-- Settles O23: each command's encoding is its opcode, start and end. -/
theorem rangeCommandsComplete : Obligations.RangeCommandsComplete := by
  intro s rest a b hruns hanswers e he
  have hencode : encode e.1 = .command [e.2, a, b] := by
    rcases List.mem_pair.mp he with rfl | rfl <;> rfl
  exact exec_command_success hencode hruns hanswers

/-- Settles O24: a data byte is the one transaction `Dat`. -/
theorem dataByteIsSentUnchanged : Obligations.DataByteIsSentUnchanged :=
  fun _ _ d hruns hanswers => emit_success (ts := [dat d]) hruns hanswers

/-! ## Outside a running sequence (O59) -/

/-- When a sequence runs (R42, R71). -/
theorem State.sequenceRuns_iff (s : State) :
    s.sequenceRuns = true ↔ s.busy = true ∧ s.txh = true ∧ s.cstate ∈ [CState.initializing, .ready, .shuttingDown] := by
  unfold State.sequenceRuns
  cases s.busy <;> cases s.txh <;> cases s.cstate <;> decide

theorem emit_of_not_runs (ts : List Transaction) {s : State} (h : s.sequenceRuns = false) :
    emit ts s = .fault .transactionOutsideSequence := by
  simp [emit, h]

/-- Settles O59: each of the three reasons is one a sequence does not run for. -/
theorem busCommandsStopOutsideASequence : Obligations.BusCommandsStopOutsideASequence := by
  intro i s hbus hreason
  rw [exec_of_isBus hbus]
  refine emit_of_not_runs _ (Bool.eq_false_iff.mpr fun hruns => ?_)
  obtain ⟨hbusy, htxh, hcstate⟩ := s.sequenceRuns_iff.mp hruns
  rcases hreason with h | h | h
  · rw [hbusy] at h; cases h
  · rw [htxh] at h; cases h
  · revert hcstate h
    cases s.cstate <;> decide

end Sys2Proof.Machine
end

section
/-! PROOFS. The host operations: what each can leave where it is legal, and NOT_READY where it is not (R305, R306); what acceptance
takes from the port (R104, R85); and a step as the dispatch of what was fetched (R107, R210). -/

namespace Sys2Proof.Machine

/-! ## Host operations by legality (R306) -/

/-- `Legal(OP, CSTATE)` of an operation (R306). -/
abbrev legalIn (i : Instr) (c : CState) : Prop :=
  c = .ready ∨ (c = .closed ∨ c = .configFailed) ∧ i ∈ [.shutdown, .getWidth, .getHeight]

theorem legal_iff (op : Byte) (c : CState) :
    legal op c = true ↔ c = .ready ∨ (c = .closed ∨ c = .configFailed) ∧ op ∈ [0x06#8, 0x07#8, 0x08#8] := by
  cases c <;> simp [legal]

/-- What the rule of a legal host operation can leave: a response OK, with FB changed by a drawing operation alone; the refresh of
UPDATE to issue; or the clear and the final refresh of SHUTDOWN to issue. -/
inductive RuleEffect (i : Instr) (s : State) : State → Prop where
  | answers (fb : Memory) (data : Word) (hfb : s.fb.fbWf → fb.fbWf)
      (hkeep : i ∈ [.shutdown, .getWidth, .getHeight] → fb = s.fb) (hupdate : i ≠ .update) (hshutdown : i = .shutdown → s.cstate ≠ .ready) :
      RuleEffect i s (State.complete .ok data { s with fb := fb })
  | updates (hi : i = .update) : RuleEffect i s s.startRefresh
  | shutsDown (hi : i = .shutdown) (hopen : s.cstate ≠ .closed ∧ s.cstate ≠ .configFailed) :
      RuleEffect i s (State.startRefresh { s with cstate := .shuttingDown, fb := Memory.cleared })

/-- A drawing operation's rule: FB changes and stays a framebuffer, and the response is OK. -/
theorem RuleEffect.draws {i : Instr} (s : State) (fb : Memory) (hfb : s.fb.fbWf → fb.fbWf)
    (hi : i ∉ [Instr.update, .shutdown, .getWidth, .getHeight]) :
    RuleEffect i s (State.complete .ok 0#16 { s with fb := fb }) := by
  simp only [List.mem_cons, List.not_mem_nil, or_false, not_or] at hi
  exact .answers fb 0#16 hfb (by simp [hi]) hi.1 fun h => absurd h hi.2.1

/-- The rule of SHUTDOWN by controller state (R271, R277). -/
theorem RuleEffect.shutdown (s : State) : RuleEffect .shutdown s s.shutdownRule := by
  by_cases hend : s.cstate = .closed ∨ s.cstate = .configFailed
  · rw [State.shutdownRule_of_closed_or_configFailed hend]
    exact .answers s.fb 0#16 id (fun _ => rfl) (by simp) (by rcases hend with h | h <;> simp [h])
  · have hrule : s.shutdownRule = State.startRefresh { s with cstate := .shuttingDown, fb := Memory.cleared } := by
      unfold State.shutdownRule
      split
      · exact absurd (.inl ‹_›) hend
      · exact absurd (.inr ‹_›) hend
      all_goals rfl
    rw [hrule]
    exact .shutsDown rfl (not_or.mp hend)

/-- Every host operation is a rule guarded by its legality (R107). -/
theorem exec_host {i : Instr} (h : i.isBus = false) (s : State) :
    ∃ op rule, exec i s = whenLegal op s rule ∧ (legal op s.cstate = true ↔ legalIn i s.cstate) ∧
      RuleEffect i s (rule s) := by
  cases i <;> cases h
  case clear =>
    exact ⟨0x01#8, fun s => State.complete .ok 0#16 { s with fb := Memory.cleared }, rfl, by simp [legal_iff],
      .draws s Memory.cleared (fun _ => Memory.fbWf_cleared) (by simp)⟩
  case setPixel | pset | pclr => exact ⟨_, _, rfl, by simp [legal_iff], .draws s _ (fun h => plot_fbWf h ..) (by simp)⟩
  case clearRect | fillRect | eraseRect =>
    exact ⟨_, _, rfl, by simp [legal_iff], .draws s _ (fun _ => fillRectangle_fbWf ..) (by simp)⟩
  case drawImage img x y =>
    exact ⟨0x04#8, fun s => State.complete .ok 0#16 { s with fb := blit s.cfgOrient img (sext16 x) (sext16 y) s.fb }, rfl,
      by simp [legal_iff], .draws s _ (fun _ => blit_fbWf ..) (by simp)⟩
  case update => exact ⟨_, _, rfl, by simp [legal_iff], .updates rfl⟩
  case shutdown => exact ⟨_, _, rfl, by simp [legal_iff, legalIn], .shutdown s⟩
  case getWidth | getHeight =>
    exact ⟨_, _, rfl, by simp [legal_iff, legalIn], .answers s.fb _ id (fun _ => rfl) (by simp) (by simp)⟩

theorem exec_host_of_legal {i : Instr} {s : State} (h : i.isBus = false) (hl : legalIn i s.cstate) :
    ∃ t, RuleEffect i s t ∧ exec i s = .next t := by
  obtain ⟨op, rule, hexec, hlegal, heffect⟩ := exec_host h s
  exact ⟨rule s, heffect, hexec.trans (whenLegal_of_legal rule (hlegal.mpr hl))⟩

/-- An operation that is not legal records NOT_READY and nothing else (R305). -/
theorem exec_host_of_not_legal {i : Instr} {s : State} (h : i.isBus = false) (hl : ¬ legalIn i s.cstate) :
    exec i s = .next (s.recordFault .notReady) := by
  obtain ⟨op, rule, hexec, hlegal, -⟩ := exec_host h s
  exact hexec.trans (whenLegal_of_illegal rule (Bool.eq_false_iff.mpr (mt hlegal.mp hl)))

/-- Settles O27: none of these operations is legal in Closed or ConfigFailed. -/
theorem drawingOutsideReadyRecordsNotReady : Obligations.DrawingOutsideReadyRecordsNotReady := by
  intro s x y w h on img hs i hi
  have hhost : i.isBus = false ∧ i ∉ [Instr.shutdown, .getWidth, .getHeight] := by
    simp only [List.mem_cons, List.not_mem_nil, or_false] at hi
    rcases hi with rfl | rfl | rfl | rfl | rfl | rfl | rfl | rfl | rfl <;> simp [Instr.isBus]
  refine exec_host_of_not_legal hhost.1 ?_
  rintro (hready | ⟨-, hquery⟩)
  · simp [hready] at hs
  · exact hhost.2 hquery

/-- Settles O60: no operation is legal in the three busy states. -/
theorem hostOperationsInBusyStatesRecordNotReady : Obligations.HostOperationsInBusyStatesRecordNotReady := by
  intro i s hhost hs
  refine exec_host_of_not_legal hhost ?_
  rintro (h | ⟨h | h, -⟩) <;> simp [h] at hs

/-! ## Acceptance (O54) -/

/-- A caller that waits has an oldest request, and taking it leaves the others in their order (R85). -/
theorem takeOldest_of_mem {c : Nat} {port : List Waiting} (h : ∃ q ∈ port, q.caller = c) :
    ∃ before q after, port = before ++ q :: after ∧ q.caller = c ∧ (∀ p ∈ before, p.caller ≠ c) ∧
      takeOldest c port = some (q, before ++ after) := by
  induction port with
  | nil => simp at h
  | cons p port ih =>
    by_cases hp : p.caller = c
    · exact ⟨[], p, port, rfl, hp, by simp, by simp [takeOldest, hp]⟩
    · obtain ⟨before, q, after, rfl, hq, hbefore, htake⟩ := ih (by simpa [hp] using h)
      exact ⟨p :: before, q, after, rfl, hq, by simpa [hp] using hbefore, by simp [takeOldest, hp, htake]⟩

/-- Only callers with a request on the port wait. -/
theorem mem_of_mem_callersWaiting {seen : List Nat} {port : List Waiting} {c : Nat} (h : c ∈ callersWaiting seen port) :
    ∃ q ∈ port, q.caller = c := by
  induction port generalizing seen with
  | nil => simp [callersWaiting] at h
  | cons p port ih =>
    unfold callersWaiting at h
    split at h
    · obtain ⟨q, hq, hc⟩ := ih h
      exact ⟨q, List.mem_cons_of_mem p hq, hc⟩
    · rcases List.mem_cons.mp h with rfl | h
      · exact ⟨p, List.mem_cons_self, rfl⟩
      · obtain ⟨q, hq, hc⟩ := ih h
        exact ⟨q, List.mem_cons_of_mem p hq, hc⟩

/-- With requests waiting, the arbiter serves a caller that waits, whatever it chooses (U8). -/
theorem chooseCaller_of_port {s : State} (h : s.port ≠ []) :
    ∃ c k, chooseCaller s = some (c, k) ∧ ∃ q ∈ s.port, q.caller = c := by
  unfold chooseCaller
  split
  next hnone =>
    obtain ⟨p, port, hport⟩ := List.exists_cons_of_ne_nil h
    simp [hport, callersWaiting] at hnone
  next c hone => exact ⟨c, s.arbK, rfl, mem_of_mem_callersWaiting (hone ▸ List.mem_singleton_self c)⟩
  next c d cs hmany =>
    refine ⟨_, _, rfl, mem_of_mem_callersWaiting (seen := []) ?_⟩
    have hlt : Config.arbiter s.arbK % (cs.length + 2) < (c :: d :: cs).length := Nat.mod_lt _ (by omega)
    rw [hmany, List.getD_eq_getElem _ _ hlt]
    exact List.getElem_mem _

/-- What acceptance does with requests waiting (R104). -/
theorem accept_of_port {s : State} (h : s.port ≠ []) :
    ∃ before q after k, s.port = before ++ q :: after ∧ (∀ p ∈ before, p.caller ≠ q.caller) ∧
      accept s = some (q.request, State.latch q { s with port := before ++ after, arbK := k }) := by
  obtain ⟨c, k, hchoose, hwaits⟩ := chooseCaller_of_port h
  obtain ⟨before, q, after, hport, rfl, hbefore, htake⟩ := takeOldest_of_mem hwaits
  exact ⟨before, q, after, k, hport, hbefore, by simp only [accept, hchoose, htake]⟩

/-- Settles O54: `accept_of_port`, with the latches of R104 read off `State.latch`. -/
theorem acceptanceTakesACallersOldestRequest : Obligations.AcceptanceTakesACallersOldestRequest := by
  intro s h
  obtain ⟨before, q, after, k, hport, hbefore, haccept⟩ := accept_of_port h
  have hop : reqOp q.request = BitVec.ofNat 8 q.request.req.toNat := by
    rw [reqOp_eq_iff, BitVec.toNat_ofNat]
  have himg : (reqOp q.request = 0x04#8) = (q.request.req.toNat % 256 = 4) := propext (reqOp_eq_iff ..)
  refine ⟨before, after, q, _, hport, hbefore, haccept, rfl, rfl, rfl, hop, rfl, rfl, rfl, rfl, rfl, ?_,
    rfl, rfl, rfl, rfl, rfl, rfl, rfl, rfl, rfl, rfl⟩
  simp only [State.latch_img, himg]

/-! ## A step dispatches what it fetches (O28, O55) -/

/-- An idle FBC's step runs the request it accepts, or records that it spells no operation (R107). -/
theorem step_of_accept {s s' : State} {r : Request} (hbusy : s.busy = false) (hwaiting : s.waiting = false)
    (haccept : accept s = some (r, s')) :
    step s =
      match decodeRequest r with
      | .ok i => exec i s'
      | .error _ => .next (s'.recordFault .illegalOp) := by
  unfold step fetch fetchRequest
  simp only [hbusy, hwaiting, haccept]
  cases decodeRequest r <;> rfl

/-- An idle FBC that accepts nothing stays as it is (log 19). -/
theorem step_of_accept_none {s : State} (hbusy : s.busy = false) (hwaiting : s.waiting = false) (haccept : accept s = none) :
    step s = .next s := by
  simp [step, fetch, fetchRequest, hbusy, hwaiting, haccept]

/-- A busy FBC in a state with sequences takes its next item off the sequence (R210). -/
theorem fetch_of_busy {s : State} (hbusy : s.busy = true) (hwaiting : s.waiting = false)
    (hcstate : s.cstate ∈ [CState.initializing, .ready, .shuttingDown]) : fetch s = fetchSequence s := by
  simp only [List.mem_cons, List.not_mem_nil, or_false] at hcstate
  unfold fetch
  rcases hcstate with h | h | h <;> simp [hbusy, hwaiting, h]

theorem fetch_of_runs {s : State} (hruns : s.sequenceRuns = true) (hwaiting : s.waiting = false) :
    fetch s = fetchSequence s := by
  obtain ⟨hbusy, -, hcstate⟩ := s.sequenceRuns_iff.mp hruns
  exact fetch_of_busy hbusy hwaiting hcstate

/-- Settles O28: a reserved request is one that decoding rejects (R106). -/
theorem illegalRequestRecordsIllegalOp : Obligations.IllegalRequestRecordsIllegalOp := by
  intro s s' r hbusy hwaiting haccept hreserved
  obtain ⟨e, he⟩ := (requestsAreRejectedExactlyWhenReserved r).mpr hreserved
  rw [step_of_accept hbusy hwaiting haccept, he]
  rfl

/-- Settles O55: the two fetches, of a request and of a sequence's next item. -/
theorem stepRunsTheDecodedInstruction : Obligations.StepRunsTheDecodedInstruction := by
  refine ⟨fun s s' r i hbusy hwaiting haccept hdecode => ?_, fun s ws i more hruns hwaiting _ hseq => ?_⟩
  · rw [step_of_accept hbusy hwaiting haccept, show decodeRequest r = .ok i from hdecode]
  · unfold step
    rw [fetch_of_runs hruns hwaiting, fetchSequence, hseq]

end Sys2Proof.Machine
end

section
/-! PROOFS. Text layout: where the characters of a line stand (R197), that each keeps to its cell (R196, R202), and how a text is drawn
character by character and line by line (R197 to R199). -/

namespace Sys2Proof.Machine

/-! ## Cells (O56) -/

/-- On one line each character stands at the column the advances before it give (R197). -/
theorem exists_of_mem_placements (f : Font) {x cx cy : Int} {text : List Nat} (h : newlineCode ∉ text) {p : Nat × Int × Int}
    (hp : p ∈ placements f x cx cy text) :
    ∃ before after, text = before ++ p.1 :: after ∧ p.2.1 = cx + ((before.map f.adv).sum : Nat) ∧ p.2.2 = cy := by
  induction text generalizing cx with
  | nil => simp at hp
  | cons c text ih =>
    simp only [List.mem_cons, not_or] at h
    rw [placements_char f x cx cy text (Ne.symm h.1)] at hp
    rcases List.mem_cons.mp hp with rfl | hp
    · exact ⟨[], text, rfl, by simp, rfl⟩
    · obtain ⟨before, after, rfl, hx, hy⟩ := ih h.2 hp
      exact ⟨c :: before, after, rfl, by rw [hx, List.map_cons, List.sum_cons]; push_cast; ring, hy⟩

/-- A drawn character's requests set pixels of its cell, which lies inside the logical panel (R195, R196). -/
theorem exists_of_mem_drawChar {o : Orient} {f : Font} (hf : f.ok) {c : Nat} {x y : Int} {on : Bool} {i : Instr}
    (hi : i ∈ drawChar o f c x y on) :
    ∃ u v b, i = .setPixel (BitVec.ofInt 16 u) (BitVec.ofInt 16 v) b ∧ inLogical o u v ∧
      (x ≤ u ∧ u < x + f.cw c) ∧ y ≤ v ∧ v < y + f.fh := by
  unfold drawChar at hi
  split at hi
  next hcell =>
    obtain ⟨⟨u, v, b⟩, hp, rfl⟩ := List.mem_map.mp hi
    obtain ⟨hxu, hux, hyv, hvy⟩ : x ≤ u ∧ u < x + f.cw c ∧ y ≤ v ∧ v < y + f.fh := hf.2 c x y on _ hp
    obtain ⟨hx, hxw, hy, hyh⟩ := hcell
    exact ⟨u, v, b, rfl, ⟨by omega, by omega, by omega, by omega⟩, ⟨hxu, hux⟩, hyv, hvy⟩
  next => simp at hi

/-- Settles O56: a request is of one placed character, and in that character's cell. -/
theorem centeredTextStaysInItsCells : Obligations.CenteredTextStaysInItsCells := by
  intro o f text y on hf hline i hi
  obtain ⟨⟨c, cx, cy⟩, hp, hdraw⟩ := List.mem_flatMap.mp hi
  obtain ⟨before, after, htext, rfl, rfl⟩ := exists_of_mem_placements f hline hp
  obtain ⟨u, v, b, rfl, hin, ⟨hxu, hux⟩, hyv, hvy⟩ := exists_of_mem_drawChar hf hdraw
  exact ⟨before, after, c, u, v, b, htext, rfl, hin, hyv, hvy, hxu, hux⟩

/-! ## Characters and lines (O57) -/

/-- After a line and its newline the cursor is back at the call's column, one line height lower (R198). -/
theorem placements_line_append (f : Font) (x cx cy : Int) {line : List Nat} (text : List Nat) (h : newlineCode ∉ line) :
    placements f x cx cy (line ++ newlineCode :: text) =
      placements f x cx cy line ++ placements f x x (cy + f.fh) text := by
  induction line generalizing cx with
  | nil => exact placements_newline f x cx cy text
  | cons c line ih =>
    simp only [List.mem_cons, not_or] at h
    rw [List.cons_append, placements_char f x cx cy _ (Ne.symm h.1), ih _ h.2, placements_char f x cx cy line (Ne.symm h.1),
      List.cons_append]

/-- R197: a character of a line, and the rest of the line one advance further right. -/
theorem drawString_char (o : Orient) (f : Font) (x y : Int) (on : Bool) {c : Nat} {text : List Nat} (hc : c ≠ newlineCode)
    (htext : newlineCode ∉ text) :
    drawString o f (c :: text) x y on = drawChar o f c x y on ++ drawString o f text (x + f.adv c) y on := by
  unfold drawString
  rw [placements_char f x x y text hc, List.flatMap_cons, placements_column f x (x + f.adv c) _ y htext]

/-- R198: a line, and what follows its newline as a string of its own. -/
theorem drawString_line (o : Orient) (f : Font) (x y : Int) (on : Bool) {line : List Nat} (text : List Nat)
    (h : newlineCode ∉ line) :
    drawString o f (line ++ newlineCode :: text) x y on =
      drawString o f line x y on ++ drawString o f text x (y + f.fh) on := by
  unfold drawString
  rw [placements_line_append f x x y text h, List.flatMap_append]

/-- Settles O57: each clause is one law of the cursor, the first and the last the definitions of R196 and R199. -/
theorem textIsDrawnCharacterByCharacterAndLineByLine : Obligations.TextIsDrawnCharacterByCharacterAndLineByLine :=
  fun o f x y on =>
    ⟨fun _ => rfl, rfl, fun _ _ hc htext => drawString_char o f x y on hc htext,
      fun _ text h => drawString_line o f x y on text h, fun _ => rfl⟩

end Sys2Proof.Machine
end

section
/-! PROOFS. Runs of the sequencer: one item a step, the whole sequence when the transport answers with success, and up to the
transaction that fails (R210, R215, R303); and from them construction (R212 to R216), UPDATE (R241) and SHUTDOWN (R271). -/

namespace Sys2Proof.Machine

/-! ## One step of a running sequence (O25, O26) -/

/-- The next item of a running sequence is taken off it and its transactions issued (R210). -/
theorem step_of_item {s : State} {item : SeqItem} {more : List SeqItem} (hruns : s.sequenceRuns = true)
    (hwaiting : s.waiting = false) (hitem : SeqItemOk item) (hseq : s.seq = item :: more) :
    step s = .next (State.issue (itemTransactions item) { s with seq := more }) := by
  unfold step
  rw [fetch_of_runs hruns hwaiting, fetchSequence, hseq]
  cases item with
  | bus i => exact (exec_of_isBus hitem.1 _).trans (emit_of_runs _ hruns)
  | block bytes => exact emit_of_runs [blk bytes] hruns

/-- A running sequence with nothing left ends (R216, R241, R275). -/
theorem step_of_seq_nil {s : State} (hruns : s.sequenceRuns = true) (hwaiting : s.waiting = false) (hseq : s.seq = []) :
    step s = .next s.finish := by
  unfold step
  rw [fetch_of_runs hruns hwaiting, fetchSequence, hseq]

/-- Construction begins with the acquisition (R212). -/
theorem step_of_uninitialized {s : State} (hcstate : s.cstate = .uninitialized) (hbusy : s.busy = true)
    (hwaiting : s.waiting = false) : step s = .next (acquire s) := by
  simp [step, fetch, hcstate, hbusy, hwaiting]

theorem step_of_waiting {s : State} (h : s.waiting = true) : step s = .fault .transportNeverAnswers := by
  simp [step, fetch, h]

theorem State.raiseTransportFailure_of_initializing (s : State) (h : s.cstate = .initializing) (k : Nat) :
    s.raiseTransportFailure k = State.complete .configFailure 0#16 { s with cstate := .configFailed, seq := [] } := by
  simp only [State.raiseTransportFailure, h]

theorem State.raiseTransportFailure_of_ready (s : State) (h : s.cstate = .ready) (k : Nat) :
    s.raiseTransportFailure k = State.complete .ioError 0#16 { s with seq := [] } := by
  simp only [State.raiseTransportFailure, h]

theorem State.raiseTransportFailure_of_shuttingDown (s : State) (h : s.cstate = .shuttingDown) (k : Nat) :
    s.raiseTransportFailure k = { s with log := logOf k, seq := [] } := by
  simp only [State.raiseTransportFailure, h]

/-- The state that has had transactions answered with success and then one with an I/O error, before that is raised. -/
def State.afterFailure (us : List Transaction) (u : Transaction) (rest : List Answer) (s : State) : State :=
  { s with
    trace := s.trace ++ succeeded us ++ [.transaction u (some .failure)], answers := rest, seqK := s.seqK + us.length + 1 }

theorem State.issue_afterFailure (s : State) {us : List Transaction} {rest : List Answer}
    (h : s.answers = List.replicate us.length .success ++ .failure :: rest) (ws : List Transaction) (u : Transaction) :
    s.issue (us ++ u :: ws) = State.raiseTransportFailure (s.seqK + us.length) (s.afterFailure us u rest) :=
  State.issue_failure us ws u s rest h

/-- Settles O25: the item's transactions up to the failing one, and init's handler (R215). -/
theorem initFailureEndsInConfigFailed : Obligations.InitFailureEndsInConfigFailed := by
  intro s item more us ws t rest hcstate hbusy hwaiting htxh hitem hseq hts hanswers
  have hruns : s.sequenceRuns = true := s.sequenceRuns_iff.mpr ⟨hbusy, htxh, by simp [hcstate]⟩
  have hissue := State.issue_afterFailure { s with seq := more } hanswers ws t
  have hraise := State.raiseTransportFailure_of_initializing (State.afterFailure us t rest { s with seq := more }) hcstate
    (s.seqK + us.length)
  rw [step_of_item hruns hwaiting hitem hseq, hts, hissue, hraise]
  rfl

/-- A stuck FBC has no step (R309). -/
theorem run_of_waiting {s : State} (h : s.waiting = true) (n : Nat) : run (n + 1) s = .fault .transportNeverAnswers := by
  rw [run, step_of_waiting h]

theorem run_of_step {s t : State} (h : step s = .next t) (n : Nat) : run (n + 1) s = run n t := by
  rw [run, h]

theorem run_one_of_step {s t : State} (h : step s = .next t) : run 1 s = .next t := run_of_step h 0

/-- Settles O26: the item's transactions up to the unanswered one, or the acquisition; what is left waits. -/
theorem unansweredTransportLeavesTheFbcStuck : Obligations.UnansweredTransportLeavesTheFbcStuck := by
  refine ⟨fun s item more us ws t hruns hwaiting hitem hseq hts hanswers => ?_, fun s hcstate hbusy hwaiting hanswers => ?_⟩
  · have hissue := State.issue_unanswered us ws t { s with seq := more } hanswers
    refine ⟨_, step_of_item hruns hwaiting hitem hseq, ?_⟩
    rw [hts, hissue]
    exact ⟨(s.sequenceRuns_iff.mp hruns).1, rfl, rfl, rfl, rfl, rfl, run_of_waiting rfl⟩
  · have hstep : step s =
        .next { s with trace := s.trace ++ [.acquire s.cfgBus s.cfgAddr none], waiting := true } := by
      rw [step_of_uninitialized hcstate hbusy hwaiting, acquire, hanswers]
    exact ⟨hstep, fun n => (run_of_step hstep (n + 1)).trans (run_of_waiting rfl n)⟩

/-! ## A whole sequence -/

theorem succeeded_append (ts us : List Transaction) : succeeded (ts ++ us) = succeeded ts ++ succeeded us := List.map_append

/-- A sequence whose every transaction is answered with success is issued, an item a step. -/
theorem run_items_success {items : List SeqItem} {s : State} {rest : List Answer} (hruns : s.sequenceRuns = true)
    (hwaiting : s.waiting = false) (hitems : ∀ item ∈ items, SeqItemOk item) (hseq : s.seq = items)
    (hanswers : s.answers = List.replicate (items.flatMap itemTransactions).length .success ++ rest) :
    run items.length s = .next (State.afterSuccess (items.flatMap itemTransactions) rest { s with seq := [] }) := by
  induction items generalizing s with
  | nil =>
    cases s
    simp_all [run, State.afterSuccess]
  | cons item items ih =>
    rw [List.flatMap_cons, List.length_append, List.replicate_add, List.append_assoc] at hanswers
    have hstep := step_of_item hruns hwaiting (hitems item List.mem_cons_self) hseq
    rw [State.issue_success _ { s with seq := items } _ hanswers] at hstep
    refine (run_of_step hstep items.length).trans
      ((ih (s := State.afterSuccess (itemTransactions item) _ { s with seq := items }) hruns hwaiting
        (fun j hj => hitems j (List.mem_cons_of_mem item hj)) rfl rfl).trans ?_)
    simp [State.afterSuccess, succeeded_append, Nat.add_assoc]

/-- Where a transaction stands in two parts of a list: in the first, or at the same place of the second. -/
theorem append_eq_append_cons {α : Type} {ts rest us ws : List α} {u : α} (h : ts ++ rest = us ++ u :: ws) :
    (∃ vs, us = ts ++ vs ∧ rest = vs ++ u :: ws) ∨ ∃ vs, ts = us ++ u :: vs := by
  rcases List.append_eq_append_iff.mp h with hvs | ⟨vs, rfl, hrest⟩
  · exact .inl hvs
  · rcases List.cons_eq_append_iff.mp hrest with ⟨rfl, hrest⟩ | ⟨vs, rfl, -⟩
    · exact .inl ⟨[], by simp, hrest.symm⟩
    · exact .inr ⟨vs, rfl⟩

/-- A raised TransportFailure ends the running sequence, whatever is left of it (R303). -/
theorem State.raiseTransportFailure_ignores_seq {s : State} (hruns : s.sequenceRuns = true) (k : Nat) (more : List SeqItem) :
    State.raiseTransportFailure k { s with seq := more } = State.raiseTransportFailure k { s with seq := [] } := by
  have hcstate := (s.sequenceRuns_iff.mp hruns).2.2
  simp only [List.mem_cons, List.not_mem_nil, or_false] at hcstate
  unfold State.raiseTransportFailure
  rcases hcstate with h | h | h <;> simp only [h]

/-- A sequence of which one transaction is answered with an I/O error is issued up to that one (R303). -/
theorem run_items_failure {items : List SeqItem} {s : State} {us ws : List Transaction} {u : Transaction}
    {rest : List Answer} (hruns : s.sequenceRuns = true) (hwaiting : s.waiting = false)
    (hitems : ∀ item ∈ items, SeqItemOk item) (hseq : s.seq = items)
    (hts : items.flatMap itemTransactions = us ++ u :: ws)
    (hanswers : s.answers = List.replicate us.length .success ++ .failure :: rest) :
    ∃ n, run n s =
      .next (State.raiseTransportFailure (s.seqK + us.length) (State.afterFailure us u rest { s with seq := [] })) := by
  induction items generalizing s us with
  | nil => simp at hts
  | cons item items ih =>
    have hstep := step_of_item hruns hwaiting (hitems item List.mem_cons_self) hseq
    rw [List.flatMap_cons] at hts
    rcases append_eq_append_cons hts with ⟨vs, rfl, hvs⟩ | ⟨vs, hitem⟩
    · rw [List.length_append, List.replicate_add, List.append_assoc] at hanswers
      rw [State.issue_success _ { s with seq := items } _ hanswers] at hstep
      obtain ⟨n, hn⟩ := ih (s := State.afterSuccess (itemTransactions item) _ { s with seq := items }) hruns hwaiting
        (fun j hj => hitems j (List.mem_cons_of_mem item hj)) rfl hvs rfl
      refine ⟨n + 1, (run_of_step hstep n).trans (hn.trans ?_)⟩
      simp [State.afterSuccess, State.afterFailure, succeeded_append, Nat.add_assoc]
    · rw [hitem, State.issue_afterFailure { s with seq := items } hanswers vs u] at hstep
      refine ⟨1, (run_one_of_step hstep).trans (congrArg Host.Outcome.next ?_)⟩
      exact State.raiseTransportFailure_ignores_seq (s := State.afterFailure us u rest s) hruns _ items

/-- A run of more than no steps begins with one. -/
theorem step_of_run {n : Nat} {s t : State} (h : run (n + 1) s = .next t) : ∃ u, step s = .next u ∧ run n u = .next t := by
  unfold run at h
  cases hstep : step s with
  | next u =>
    rw [hstep] at h
    exact ⟨u, rfl, h⟩
  | fault r => rw [hstep] at h; cases h
  | refused r => rw [hstep] at h; cases h

/-- Steps after steps. -/
theorem run_add {m : Nat} {s t : State} (h : run m s = .next t) (n : Nat) : run (m + n) s = run n t := by
  induction m generalizing s with
  | zero =>
    obtain rfl := Host.Outcome.next.inj h
    rw [Nat.zero_add]
  | succ m ih =>
    obtain ⟨u, hstep, hrun⟩ := step_of_run h
    rw [Nat.add_right_comm, run_of_step hstep, ih hrun]

/-- A sequence whose every transaction is answered with success is issued and ends (R216, R241, R275). -/
theorem run_sequence_success {s : State} {rest : List Answer} (hruns : s.sequenceRuns = true)
    (hwaiting : s.waiting = false) (hitems : ∀ item ∈ s.seq, SeqItemOk item)
    (hanswers : s.answers = List.replicate (s.seq.flatMap itemTransactions).length .success ++ rest) :
    run (s.seq.length + 1) s =
      .next (State.finish (State.afterSuccess (s.seq.flatMap itemTransactions) rest { s with seq := [] })) := by
  have hend := step_of_seq_nil (s := State.afterSuccess (s.seq.flatMap itemTransactions) rest { s with seq := [] }) hruns
    hwaiting rfl
  exact (run_add (run_items_success hruns hwaiting hitems rfl hanswers) 1).trans (run_one_of_step hend)

/-! ## Construction (O31, O32) -/

theorem State.finish_of_initializing (s : State) (h : s.cstate = .initializing) :
    s.finish = State.complete .ok 0#16 { s with cstate := .ready } := by
  simp only [State.finish, h]

theorem State.finish_of_ready (s : State) (h : s.cstate = .ready) : s.finish = s.complete .ok 0#16 := by
  simp only [State.finish, h]

theorem State.finish_of_shuttingDown (s : State) (h : s.cstate = .shuttingDown) :
    s.finish = State.complete .ok 0#16 { s with trace := s.trace ++ [.release], txh := false, cstate := .closed } := by
  simp only [State.finish, h]

/-- The init sequence holds only what the FBC may send (R111, R214). -/
theorem initSequence_ok (p : Params) (m : AMode) : ∀ item ∈ initSequence p m, SeqItemOk item := by
  cases m <;> simp [initSequence, SeqItemOk, Instr.isBus, Instr.wf, modeByte]

/-- The init sequence issues the 25 bytes of R214's table on register 0x00. -/
theorem initSequence_transactions (p : Params) (m : AMode) :
    (initSequence p m).flatMap itemTransactions = (initBytes p m).map cmd := by
  have hremap : ∀ r : BitVec 1, 0b1010000#7 ++ r = 0xA0#8 ||| r.setWidth 8 := by decide
  have hscan : ∀ d : BitVec 1, 0b1100#4 ++ (d ++ 0#3) = 0xC0#8 ||| (d.setWidth 8 <<< 3) := by decide
  simp [initSequence, initBytes, itemTransactions, encode, hremap, hscan]

/-- The state after a successful acquisition, from reset with parameters, a port and answers (R212, R213). -/
def acquired (c : ConfigInput) (p : Params) (port : List Waiting) (answers : List Answer) : State :=
  { State.resetWith c with
    params := p, port := port, answers := answers, txh := true, cstate := .initializing, seq := initSequence p c.amode,
    trace := [.acquire c.bus c.addr (some .success)] }

theorem step_acquires (c : ConfigInput) (p : Params) (port : List Waiting) (answers : List Answer) :
    step { State.resetWith c with params := p, port := port, answers := .success :: answers } =
      .next (acquired c p port answers) :=
  step_of_uninitialized rfl rfl rfl

/-- Settles O31: the acquisition, the 16 items of init, and the end of the sequence. -/
theorem constructionSucceeds : Obligations.ConstructionSucceeds := by
  intro c p port rest
  have htransactions := initSequence_transactions p c.amode
  have hrun := run_sequence_success (s := acquired c p port (List.replicate 25 .success ++ rest)) (rest := rest) rfl rfl
    (initSequence_ok p c.amode) (by rw [acquired, htransactions]; rfl)
  refine (run_of_step (step_acquires c p port _) 17).trans (hrun.trans (congrArg Host.Outcome.next ?_))
  rw [State.finish_of_initializing _ rfl, acquired, htransactions]
  rfl

/-- Settles O32: the acquisition that fails, or the acquisition and init up to its transaction `k`. -/
theorem constructionFailsPrecisely : Obligations.ConstructionFailsPrecisely := by
  intro c p port rest
  refine ⟨step_of_uninitialized rfl rfl rfl, fun k hk => ?_⟩
  have hlt : k < (initBytes p c.amode).length := hk
  have hsplit : (initSequence p c.amode).flatMap itemTransactions =
      ((initBytes p c.amode).take k).map cmd ++ cmd (initBytes p c.amode)[k] :: ((initBytes p c.amode).drop (k + 1)).map cmd := by
    rw [initSequence_transactions, ← List.map_cons, ← List.map_append, ← List.drop_eq_getElem_cons hlt, List.take_append_drop]
  have hlength : (((initBytes p c.amode).take k).map cmd).length = k := by simp [Nat.le_of_lt hlt]
  obtain ⟨n, hn⟩ := run_items_failure
    (s := acquired c p port (List.replicate k .success ++ .failure :: rest)) (rest := rest) rfl rfl
    (initSequence_ok p c.amode) rfl hsplit (by rw [hlength]; rfl)
  refine ⟨n + 1, _, List.getElem?_eq_getElem hlt, (run_of_step (step_acquires c p port _) n).trans (hn.trans ?_)⟩
  rw [State.raiseTransportFailure_of_initializing _ rfl, State.afterFailure, hlength]
  simp only [acquired, State.complete, State.respond, State.resetWith, Nat.zero_add]
  rfl

/-! ## UPDATE (O36 to O38) -/

/-- A refresh holds only what the FBC may send (R74, R111). -/
theorem refreshSequence_ok (m : AMode) (tx : PageTx) (fb : Memory) : ∀ item ∈ refreshSequence m tx fb, SeqItemOk item := by
  intro item h
  cases m with
  | horizontal =>
    rcases List.mem_append.mp h with hrange | hblock
    · rcases List.mem_pair.mp hrange with rfl | rfl <;> exact ⟨rfl, rfl⟩
    · obtain ⟨c, -, rfl⟩ := List.mem_map.mp hblock
      exact .inl (Memory.length_bytes ..)
  | page =>
    obtain ⟨p, -, hp⟩ := List.mem_flatMap.mp h
    rcases List.mem_append.mp hp with hselect | hdata
    · simp only [List.mem_cons, List.not_mem_nil, or_false] at hselect
      rcases hselect with rfl | rfl | rfl <;> exact ⟨rfl, rfl⟩
    · cases tx with
      | single =>
        obtain ⟨b, -, rfl⟩ := List.mem_map.mp hdata
        exact ⟨rfl, rfl⟩
      | block =>
        obtain rfl := List.mem_singleton.mp hdata
        exact .inr (Memory.length_bytes ..)

/-- The refresh UPDATE starts issues the transactions of the rules (R240). -/
theorem startRefresh_transactions (s : State) :
    s.startRefresh.seq.flatMap itemTransactions = refreshTransactions s.cfgAmode s.params.pageTx s.fb :=
  refreshIssues_eq_refreshTransactions ..

theorem exec_update_of_ready {s : State} (h : s.cstate = .ready) : exec .update s = .next s.startRefresh :=
  whenLegal_of_ready h 0x05#8 State.startRefresh

/-- Settles O36: the sequence is the refresh's own, whose transactions are those of the rules. -/
theorem updateStartsItsRefresh : Obligations.UpdateStartsItsRefresh :=
  fun s h => ⟨s.startRefresh.seq, exec_update_of_ready h, startRefresh_transactions s⟩

/-- A sequence runs in Ready while an operation does (R42, R46). -/
theorem State.sequenceRuns_of_ready {s : State} (h : s.cstate = .ready) (hbusy : s.busy = true) (htxh : s.txh = true) :
    s.sequenceRuns = true := s.sequenceRuns_iff.mpr ⟨hbusy, htxh, by simp [h]⟩

/-- Settles O37: the whole refresh runs, and ends in Ready (R241). -/
theorem updateRefreshesThePanel : Obligations.UpdateRefreshesThePanel := by
  intro s rest hready hbusy hwaiting htxh hanswers
  rw [← startRefresh_transactions] at hanswers ⊢
  have hrun := run_sequence_success (s := s.startRefresh) (State.sequenceRuns_of_ready hready hbusy htxh) hwaiting
    (refreshSequence_ok _ _ _) hanswers
  rw [State.finish_of_ready (State.afterSuccess _ rest { s.startRefresh with seq := [] }) hready] at hrun
  refine ⟨_, _, exec_update_of_ready hready, hrun.trans ?_⟩
  simp [State.complete, State.respond, State.afterSuccess]

/-- Settles O38: the refresh runs up to transaction `k`, and UPDATE's handler answers (R241). -/
theorem failedUpdateStopsAtItsTransaction : Obligations.FailedUpdateStopsAtItsTransaction := by
  intro s us ws u rest hready hbusy hwaiting htxh hts hanswers
  rw [← startRefresh_transactions] at hts
  obtain ⟨n, hrun⟩ := run_items_failure (s := s.startRefresh) (State.sequenceRuns_of_ready hready hbusy htxh) hwaiting
    (refreshSequence_ok _ _ _) rfl hts hanswers
  rw [State.raiseTransportFailure_of_ready (State.afterFailure us u rest { s.startRefresh with seq := [] }) hready] at hrun
  refine ⟨_, n, exec_update_of_ready hready, hrun.trans ?_⟩
  simp [State.complete, State.respond, State.afterFailure]

/-! ## SHUTDOWN (O39 to O41) -/

/-- SHUTDOWN in Ready: ShuttingDown, FB cleared, and the final refresh to issue (R271). -/
def State.shutsDown (s : State) : State := State.startRefresh { s with cstate := .shuttingDown, fb := Memory.cleared }

theorem exec_shutdown_of_ready {s : State} (h : s.cstate = .ready) : exec .shutdown s = .next s.shutsDown := by
  refine (whenLegal_of_ready h 0x06#8 State.shutdownRule).trans ?_
  simp only [State.shutdownRule, h]
  rfl

theorem shutsDown_transactions (s : State) :
    s.shutsDown.seq.flatMap itemTransactions = refreshTransactions s.cfgAmode s.params.pageTx [] :=
  startRefresh_transactions { s with cstate := .shuttingDown, fb := Memory.cleared }

theorem shutsDown_runs {s : State} (hbusy : s.busy = true) (htxh : s.txh = true) : s.shutsDown.sequenceRuns = true :=
  (State.sequenceRuns_iff _).mpr ⟨hbusy, htxh, List.mem_of_mem_getLast? rfl⟩

/-- Settles O39: the final refresh is of the cleared FB (R273). -/
theorem shutdownStartsItsFinalRefresh : Obligations.ShutdownStartsItsFinalRefresh :=
  fun s h => ⟨Memory.cleared, s.shutsDown.seq, exec_shutdown_of_ready h, Memory.fbWf_cleared, Memory.read_cleared,
    shutsDown_transactions s⟩

/-- Settles O40: the whole final refresh runs, and ends with the release in Closed (R275, R276). -/
theorem shutdownClearsFlushesAndReleases : Obligations.ShutdownClearsFlushesAndReleases := by
  intro s rest hready hbusy hwaiting htxh hanswers
  rw [← shutsDown_transactions] at hanswers ⊢
  have hrun := run_sequence_success (s := s.shutsDown) (shutsDown_runs hbusy htxh) hwaiting (refreshSequence_ok _ _ _) hanswers
  rw [State.finish_of_shuttingDown _ rfl] at hrun
  refine ⟨_, _, exec_shutdown_of_ready hready, hrun.trans ?_⟩
  simp [State.complete, State.respond, State.afterSuccess, State.shutsDown, Memory.cleared]

/-- Settles O41: the final refresh runs up to transaction `k`, which is logged, and what is left is the end of the sequence
(R274). -/
theorem shutdownSwallowsAFailedRefresh : Obligations.ShutdownSwallowsAFailedRefresh := by
  intro s us ws u rest hready hbusy hwaiting htxh hts hanswers
  rw [← shutsDown_transactions] at hts
  have hruns := shutsDown_runs hbusy htxh
  obtain ⟨n, hrun⟩ := run_items_failure hruns hwaiting (refreshSequence_ok _ _ _) rfl hts hanswers
  rw [State.raiseTransportFailure_of_shuttingDown _ rfl] at hrun
  have hend := step_of_seq_nil (s := { State.afterFailure us u rest { s.shutsDown with seq := [] } with
    log := logOf (s.shutsDown.seqK + us.length) }) hruns hwaiting rfl
  rw [State.finish_of_shuttingDown _ rfl] at hend
  refine ⟨_, n + 1, exec_shutdown_of_ready hready, (run_add hrun 1).trans ((run_one_of_step hend).trans ?_)⟩
  simp [State.complete, State.respond, State.afterFailure, State.shutsDown, Memory.cleared, logOf]

end Sys2Proof.Machine
end

section
/-! PROOFS. Everything one step can do, said once; and from it what no step changes (R35, R44), how the trace grows (R42, R74, R75),
and what a busy step leaves as it is (R46, R88, R104). -/

namespace Sys2Proof.Machine

/-! ## Everything a step can do -/

/-- Requests spell host operations only (R105). -/
theorem isBus_of_decodeRequest {r : Request} {i : Instr} (h : decodeRequest r = .ok i) : i.isBus = false := by
  unfold decodeRequest at h
  split_ifs at h <;> cases h <;> rfl

/-- Everything a host operation can do (R107). -/
theorem exec_host_next {i : Instr} {s t : State} (hhost : i.isBus = false) (h : exec i s = .next t) :
    (¬ legalIn i s.cstate ∧ t = s.recordFault .notReady) ∨ (legalIn i s.cstate ∧ RuleEffect i s t) := by
  by_cases hl : legalIn i s.cstate
  · obtain ⟨u, heffect, hu⟩ := exec_host_of_legal hhost hl
    obtain rfl := Host.Outcome.next.inj (hu.symm.trans h)
    exact .inr ⟨hl, heffect⟩
  · exact .inl ⟨hl, (Host.Outcome.next.inj ((exec_host_of_not_legal hhost hl).symm.trans h)).symm⟩

/-- Everything a step can do, by what it fetches. A host operation in a sequence (`misplaced`) is what no state with the invariant
has. -/
inductive Stepped (s : State) : State → Prop where
  | idle (hbusy : s.busy = false) (haccept : accept s = none) : Stepped s s
  | illegal {r : Request} {s' : State} (hbusy : s.busy = false) (haccept : accept s = some (r, s')) :
      Stepped s (s'.recordFault .illegalOp)
  | operation {r : Request} {s' t : State} {i : Instr} (hbusy : s.busy = false) (haccept : accept s = some (r, s'))
      (hhost : i.isBus = false) (hexec : exec i s' = .next t) : Stepped s t
  | acquired (hbusy : s.busy = true) (hcstate : s.cstate = .uninitialized) : Stepped s (acquire s)
  | issued {item : SeqItem} {more : List SeqItem} (hruns : s.sequenceRuns = true) (hseq : s.seq = item :: more) :
      Stepped s (State.issue (itemTransactions item) { s with seq := more })
  | misplaced {i : Instr} {more : List SeqItem} {t : State} (hbusy : s.busy = true) (hseq : s.seq = .bus i :: more)
      (hhost : i.isBus = false) (hexec : exec i { s with seq := more } = .next t) : Stepped s t
  | ended (hbusy : s.busy = true) (hcstate : s.cstate ∈ [CState.initializing, .ready, .shuttingDown]) (hseq : s.seq = []) :
      Stepped s s.finish

/-- What the request port can give a step (R104, R106, R107). -/
theorem stepped_of_fetchRequest {s : State} (hbusy : s.busy = false) (hwaiting : s.waiting = false) {t : State}
    (h : step s = .next t) : Stepped s t := by
  cases haccept : accept s with
  | none =>
    obtain rfl := Host.Outcome.next.inj ((step_of_accept_none hbusy hwaiting haccept).symm.trans h)
    exact .idle hbusy haccept
  | some p =>
    obtain ⟨r, s'⟩ := p
    rw [step_of_accept hbusy hwaiting haccept] at h
    cases hdecode : decodeRequest r with
    | ok i =>
      rw [hdecode] at h
      exact .operation hbusy haccept (isBus_of_decodeRequest hdecode) h
    | error e =>
      rw [hdecode] at h
      obtain rfl := Host.Outcome.next.inj h
      exact .illegal hbusy haccept

/-- What the running sequence can give a step (R210). -/
theorem stepped_of_fetchSequence {s t : State} (hbusy : s.busy = true) (hwaiting : s.waiting = false)
    (hcstate : s.cstate ∈ [CState.initializing, .ready, .shuttingDown]) (h : step s = .next t) : Stepped s t := by
  unfold step at h
  rw [fetch_of_busy hbusy hwaiting hcstate, fetchSequence] at h
  cases hseq : s.seq with
  | nil =>
    rw [hseq] at h
    obtain rfl := Host.Outcome.next.inj h
    exact .ended hbusy hcstate hseq
  | cons item more =>
    rw [hseq] at h
    cases item with
    | bus i =>
      cases hbus : i.isBus with
      | true =>
        obtain ⟨hruns, rfl⟩ := emit_next ((exec_of_isBus hbus _).symm.trans h)
        exact .issued hruns hseq
      | false => exact .misplaced hbusy hseq hbus h
    | block bytes =>
      obtain ⟨hruns, rfl⟩ := emit_next h
      exact Stepped.issued (s := s) hruns hseq

/-- Everything a step can do; a stuck FBC has none (R309). -/
theorem step_cases {s t : State} (h : step s = .next t) : s.waiting = false ∧ Stepped s t := by
  have hwaiting : s.waiting = false := by
    refine Bool.eq_false_iff.mpr fun hw => ?_
    rw [step_of_waiting hw] at h
    cases h
  refine ⟨hwaiting, ?_⟩
  cases hbusy : s.busy with
  | false => exact stepped_of_fetchRequest hbusy hwaiting h
  | true =>
    cases hcstate : s.cstate with
    | uninitialized =>
      obtain rfl := Host.Outcome.next.inj ((step_of_uninitialized hcstate hbusy hwaiting).symm.trans h)
      exact .acquired hbusy hcstate
    | initializing | ready | shuttingDown => exact stepped_of_fetchSequence hbusy hwaiting (by simp [hcstate]) h
    | closed | configFailed => simp [step, fetch, hwaiting, hbusy, hcstate] at h

/-! ## Everything issued transactions can do -/

/-- The state that waits for an answer that never comes, after transactions answered with success (R309). -/
def State.afterNoAnswer (us : List Transaction) (u : Transaction) (s : State) : State :=
  { s with
    trace := s.trace ++ succeeded us ++ [.transaction u none], answers := [], seqK := s.seqK + us.length, waiting := true }

/-- All succeed, one fails, or one is never answered. -/
inductive Issued (ts : List Transaction) (s : State) : State → Prop where
  | success (rest : List Answer) : Issued ts s (s.afterSuccess ts rest)
  | failure {us ws : List Transaction} {u : Transaction} (rest : List Answer) (hts : ts = us ++ u :: ws) :
      Issued ts s (State.raiseTransportFailure (s.seqK + us.length) (s.afterFailure us u rest))
  | unanswered {us ws : List Transaction} {u : Transaction} (hts : ts = us ++ u :: ws) : Issued ts s (s.afterNoAnswer us u)

theorem State.issue_cases (ts : List Transaction) (s : State) : Issued ts s (s.issue ts) := by
  have hsplit : ∀ k (hk : k < ts.length), ∃ us u ws, ts = us ++ u :: ws ∧ us.length = k := fun k hk =>
    ⟨ts.take k, ts[k], ts.drop (k + 1), by rw [← List.drop_eq_getElem_cons hk, List.take_append_drop],
      List.length_take_of_le (Nat.le_of_lt hk)⟩
  rcases answers_cases ts.length s.answers with ⟨rest, h⟩ | ⟨k, rest, hk, h⟩ | ⟨k, hk, h⟩
  · rw [State.issue_success ts s rest h]
    exact .success rest
  · obtain ⟨us, u, ws, rfl, rfl⟩ := hsplit k hk
    rw [State.issue_afterFailure s h]
    exact .failure rest rfl
  · obtain ⟨us, u, ws, rfl, rfl⟩ := hsplit k hk
    rw [State.issue_unanswered us ws u s h]
    exact .unanswered rfl

/-! ## What no step changes (O29, O47) -/

/-- The configuration registers and the parameters (R31 to R34, R14). -/
def State.config (s : State) : BusId × Byte × Orient × AMode × Params :=
  (s.cfgBus, s.cfgAddr, s.cfgOrient, s.cfgAmode, s.params)

/-- The operand latches (R48). -/
def State.latches (s : State) : Byte × Bool × Word × Word × Word × Word × Image := (s.op, s.on, s.x, s.y, s.w, s.h, s.img)

/-- What the FBC's own work, the acquisition and its sequences, leaves as it is. -/
structure SameOutsideSequence (s t : State) : Prop where
  config    : t.config = s.config
  fb        : t.fb = s.fb
  fault     : t.fault = s.fault
  latches   : t.latches = s.latches
  port      : t.port = s.port
  requester : t.requester = s.requester

theorem acquire_same (s : State) : SameOutsideSequence s (acquire s) := by
  rcases acquire_cases s with ⟨rest, h⟩ | ⟨rest, h⟩ | h <;> rw [h] <;> exact ⟨rfl, rfl, rfl, rfl, rfl, rfl⟩

theorem State.finish_same (s : State) : SameOutsideSequence s s.finish := by
  rcases s.finish_cases with ⟨-, h⟩ | ⟨-, h⟩ | ⟨-, h⟩ | ⟨-, h⟩ <;> rw [h] <;> exact ⟨rfl, rfl, rfl, rfl, rfl, rfl⟩

theorem issue_item_same (ts : List Transaction) (s : State) (more : List SeqItem) :
    SameOutsideSequence s (State.issue ts { s with seq := more }) := by
  have h := State.issue_same ts { s with seq := more }
  exact ⟨by simp only [State.config, h.cfgBus, h.cfgAddr, h.cfgOrient, h.cfgAmode, h.params], h.fb, h.fault, h.latches,
    h.port, h.requester⟩

/-- A fault bit set on top keeps those that are set. -/
theorem and_faultWith (v : BitVec 2) (f : UsageFault) : v &&& faultWith f v = v := by
  cases f <;> revert v <;> decide

/-- A host operation keeps the configuration, adds fault bits at most, and issues nothing. -/
theorem exec_host_keeps {i : Instr} {s t : State} (hhost : i.isBus = false) (h : exec i s = .next t) :
    t.config = s.config ∧ s.fault &&& t.fault = s.fault ∧ t.trace = s.trace := by
  rcases exec_host_next hhost h with ⟨-, rfl⟩ | ⟨-, heffect⟩
  · exact ⟨rfl, and_faultWith _ _, rfl⟩
  · cases heffect <;> exact ⟨rfl, BitVec.and_self, rfl⟩

/-- No step changes the configuration or clears a fault bit. -/
theorem step_keeps {s t : State} (h : step s = .next t) : t.config = s.config ∧ s.fault &&& t.fault = s.fault := by
  have hsame : ∀ u, SameOutsideSequence s u → u.config = s.config ∧ s.fault &&& u.fault = s.fault := fun u hu =>
    ⟨hu.config, by rw [hu.fault, BitVec.and_self]⟩
  cases (step_cases h).2 with
  | idle => exact ⟨rfl, BitVec.and_self⟩
  | illegal _ haccept =>
    obtain ⟨q, port, k, -, rfl⟩ := accept_next haccept
    exact ⟨rfl, and_faultWith _ _⟩
  | operation _ haccept hhost hexec =>
    obtain ⟨q, port, k, -, rfl⟩ := accept_next haccept
    obtain ⟨hconfig, hfault, -⟩ := exec_host_keeps hhost hexec
    exact ⟨hconfig, hfault⟩
  | acquired => exact hsame _ (acquire_same s)
  | issued => exact hsame _ (issue_item_same _ s _)
  | misplaced _ _ hhost hexec =>
    obtain ⟨hconfig, hfault, -⟩ := exec_host_keeps hhost hexec
    exact ⟨hconfig, hfault⟩
  | ended => exact hsame _ s.finish_same

/-- Settles O29: the second half of `step_keeps`. -/
theorem faultBitsAreSticky : Obligations.FaultBitsAreSticky := fun _ _ h => (step_keeps h).2

/-- Settles O47: the first half of `step_keeps`. -/
theorem configurationNeverChanges : Obligations.ConfigurationNeverChanges := by
  intro s t h
  have hconfig := (step_keeps h).1
  simpa only [State.config, Prod.mk.injEq] using hconfig

/-! ## How the trace grows (O48, O49) -/

/-- The transactions among new events are of a list `ts`. -/
def OnlyFrom (ts : List Transaction) (new : List Event) : Prop := ∀ u a, .transaction u a ∈ new → u ∈ ts

theorem onlyFrom_succeeded_append {ts us ws : List Transaction} {u : Transaction} (hts : ts = us ++ u :: ws) (a : Option Answer) :
    OnlyFrom ts (succeeded us ++ [.transaction u a]) := by
  intro v b hv
  simp only [succeeded, List.mem_append, List.mem_map, List.mem_singleton, Event.transaction.injEq] at hv
  rcases hv with ⟨w, hw, rfl, -⟩ | ⟨rfl, -⟩ <;> simp [*]

theorem State.raiseTransportFailure_trace (k : Nat) (s : State) : (s.raiseTransportFailure k).trace = s.trace := by
  unfold State.raiseTransportFailure
  split <;> rfl

/-- Issued transactions are what the trace grows by. -/
theorem State.issue_trace (ts : List Transaction) (s : State) :
    ∃ new, (s.issue ts).trace = s.trace ++ new ∧ OnlyFrom ts new := by
  have hcases := State.issue_cases ts s
  generalize s.issue ts = t at hcases ⊢
  cases hcases with
  | success rest =>
    refine ⟨succeeded ts, rfl, fun u a h => ?_⟩
    obtain ⟨v, hv, heq⟩ := List.mem_map.mp h
    obtain ⟨rfl, -⟩ := Event.transaction.inj heq
    exact hv
  | failure rest hts =>
    rw [State.raiseTransportFailure_trace]
    exact ⟨_, List.append_assoc .., onlyFrom_succeeded_append hts _⟩
  | unanswered hts => exact ⟨_, List.append_assoc .., onlyFrom_succeeded_append hts _⟩

/-- The trace grows by transactions of an item of the running sequence, or by other events. -/
theorem step_trace {s t : State} (h : step s = .next t) :
    ∃ new, t.trace = s.trace ++ new ∧
      ∀ u a, .transaction u a ∈ new → s.txh = true ∧ ∃ item ∈ s.seq, u ∈ itemTransactions item := by
  have hsame : ∀ u : State, u.trace = s.trace → ∃ new, u.trace = s.trace ++ new ∧
      ∀ v a, .transaction v a ∈ new → s.txh = true ∧ ∃ item ∈ s.seq, v ∈ itemTransactions item := fun u hu =>
    ⟨[], by simp [hu], by simp⟩
  cases (step_cases h).2 with
  | idle => exact hsame _ rfl
  | illegal _ haccept =>
    obtain ⟨q, port, k, -, rfl⟩ := accept_next haccept
    exact hsame _ rfl
  | operation _ haccept hhost hexec =>
    obtain ⟨q, port, k, -, rfl⟩ := accept_next haccept
    obtain ⟨-, -, htrace⟩ := exec_host_keeps hhost hexec
    exact hsame _ htrace
  | acquired =>
    rcases acquire_cases s with ⟨rest, hs⟩ | ⟨rest, hs⟩ | hs <;> rw [hs] <;> exact ⟨_, rfl, by simp⟩
  | @issued item more hruns hseq =>
    obtain ⟨new, hnew, honly⟩ := State.issue_trace (itemTransactions item) { s with seq := more }
    refine ⟨new, hnew, fun u a hu => ⟨(s.sequenceRuns_iff.mp hruns).2.1, item, ?_, honly u a hu⟩⟩
    rw [hseq]
    exact List.mem_cons_self
  | misplaced _ _ hhost hexec =>
    obtain ⟨-, -, htrace⟩ := exec_host_keeps hhost hexec
    exact hsame _ htrace
  | ended =>
    rcases s.finish_cases with ⟨-, hs⟩ | ⟨-, hs⟩ | ⟨-, hs⟩ | ⟨-, hs⟩ <;> rw [hs]
    · exact hsame _ rfl
    · exact hsame _ rfl
    · exact ⟨_, rfl, by simp⟩
    · exact hsame _ rfl

/-- Settles O48: the transactions of `step_trace` need TXH. -/
theorem transactionsOnlyWhileTheTransportIsHeld : Obligations.TransactionsOnlyWhileTheTransportIsHeld := by
  intro s t h
  obtain ⟨new, hnew, htransactions⟩ := step_trace h
  exact ⟨new, hnew, fun u a hu => (htransactions u a hu).1⟩

/-- The transactions of an item the FBC may send are of the three kinds (R74). -/
theorem kind_of_mem_itemTransactions {item : SeqItem} (hitem : SeqItemOk item) {u : Transaction}
    (hu : u ∈ itemTransactions item) :
    (∃ b, u = .writeRegister 0x00#8 b) ∨ (∃ b, u = .writeRegister 0x40#8 b) ∨
      ∃ bs, u = .writeBlock 0x40#8 bs ∧ (bs.length = 16 ∨ bs.length = 128) := by
  cases item with
  | bus i =>
    unfold itemTransactions at hu
    cases hencode : encode i with
    | request r => simp [hencode] at hu
    | command bytes =>
      simp only [hencode, List.mem_map] at hu
      obtain ⟨b, -, rfl⟩ := hu
      exact .inl ⟨b, rfl⟩
    | data d =>
      simp only [hencode, List.mem_singleton] at hu
      exact .inr (.inl ⟨d, hu⟩)
  | block bytes => exact .inr (.inr ⟨bytes, List.mem_singleton.mp hu, hitem⟩)

/-- Settles O49: the items of the sequence are ones the FBC may send. -/
theorem onlyThreeKindsOfTransaction : Obligations.OnlyThreeKindsOfTransaction := by
  intro s t hinv h
  obtain ⟨new, hnew, htransactions⟩ := step_trace h
  refine ⟨new, hnew, fun u a hu => ?_⟩
  obtain ⟨-, item, hitem, hmem⟩ := htransactions u a hu
  exact kind_of_mem_itemTransactions (hinv.items item hitem) hmem

/-! ## Steps under the invariant (O50, O51) -/

/-- What a busy step does: the acquisition, the next item, or the end of the sequence. -/
inductive BusyStep (s : State) : State → Prop where
  | acquired (hcstate : s.cstate = .uninitialized) : BusyStep s (acquire s)
  | issued {item : SeqItem} {more : List SeqItem} (hruns : s.sequenceRuns = true) (hseq : s.seq = item :: more) :
      BusyStep s (State.issue (itemTransactions item) { s with seq := more })
  | ended (hcstate : s.cstate ∈ [CState.initializing, .ready, .shuttingDown]) (hseq : s.seq = []) : BusyStep s s.finish

/-- A sequence under the invariant holds no host operation, so a busy step is of the FBC's own work. -/
theorem busyStep_of_step {s t : State} (hinv : Inv s) (hbusy : s.busy = true) (h : step s = .next t) : BusyStep s t := by
  cases (step_cases h).2 with
  | idle hidle | illegal hidle | operation hidle => rw [hbusy] at hidle; cases hidle
  | acquired _ hcstate => exact .acquired hcstate
  | issued hruns hseq => exact .issued hruns hseq
  | @misplaced i more _ _ hseq hhost _ =>
    have hitem : SeqItemOk (.bus i) := hinv.items _ (hseq ▸ List.mem_cons_self)
    rw [hitem.1] at hhost
    cases hhost
  | ended _ hcstate hseq => exact .ended hcstate hseq

theorem busyStep_same {s t : State} (h : BusyStep s t) : SameOutsideSequence s t := by
  cases h with
  | acquired => exact acquire_same s
  | issued => exact issue_item_same _ s _
  | ended => exact s.finish_same

/-- Settles O50: the port, the requester and the latches of `busyStep_same`. -/
theorem noRequestIsAcceptedWhileBusy : Obligations.NoRequestIsAcceptedWhileBusy := by
  intro s t hinv hbusy h
  have hsame := busyStep_same (busyStep_of_step hinv hbusy h)
  have hlatches := hsame.latches
  simp only [State.latches, Prod.mk.injEq] at hlatches
  exact ⟨hsame.port, hsame.requester, hlatches⟩

/-- Settles O51: FB of `busyStep_same`. -/
theorem refreshReadsAConsistentSnapshot : Obligations.RefreshReadsAConsistentSnapshot :=
  fun _ _ hinv hbusy h => (busyStep_same (busyStep_of_step hinv hbusy h)).fb

end Sys2Proof.Machine
end

section
/-! PROOFS. What an idle step does; the invariant at reset and over every step (R36, R42, R43, R46, R52, R74); and from them that
Closed is final (R276, R278). -/

namespace Sys2Proof.Machine

/-! ## What an idle step does -/

/-- What an idle step does: nothing, a recorded fault, or a legal operation, after acceptance. -/
inductive IdleStep (s : State) : State → Prop where
  | idle : IdleStep s s
  | faulted (q : Waiting) (port : List Waiting) (k : Nat) (f : UsageFault) :
      IdleStep s (State.recordFault f (State.latch q { s with port := port, arbK := k }))
  | ran (q : Waiting) (port : List Waiting) (k : Nat) {i : Instr} {t : State} (hlegal : legalIn i s.cstate)
      (heffect : RuleEffect i (State.latch q { s with port := port, arbK := k }) t) : IdleStep s t

theorem idleStep_of_step {s t : State} (hbusy : s.busy = false) (h : step s = .next t) : IdleStep s t := by
  cases (step_cases h).2 with
  | idle => exact .idle
  | illegal _ haccept =>
    obtain ⟨q, port, k, -, rfl⟩ := accept_next haccept
    exact .faulted q port k .illegalOp
  | operation _ haccept hhost hexec =>
    obtain ⟨q, port, k, -, rfl⟩ := accept_next haccept
    rcases exec_host_next hhost hexec with ⟨-, rfl⟩ | ⟨hlegal, heffect⟩
    · exact .faulted q port k .notReady
    · exact .ran q port k hlegal heffect
  | acquired hb | misplaced hb | ended hb => rw [hbusy] at hb; cases hb
  | issued hruns =>
    have hb := (s.sequenceRuns_iff.mp hruns).1
    rw [hbusy] at hb
    cases hb

/-- UPDATE, and SHUTDOWN with the transport held, are legal in Ready alone (R306). -/
theorem ready_of_legalIn {i : Instr} {c : CState} (h : legalIn i c) (hi : i = .update ∨ c ≠ .closed ∧ c ≠ .configFailed) :
    c = .ready := by
  rcases h with h | ⟨hend, hquery⟩
  · exact h
  · rcases hi with rfl | ⟨hclosed, hfailed⟩
    · simp at hquery
    · exact absurd hend (not_or.mpr ⟨hclosed, hfailed⟩)

/-! ## The invariant (O44, O45) -/

/-- Settles O44: an empty memory and sequence, BUSY, and no log. -/
theorem resetHasTheInvariant : Obligations.ResetHasTheInvariant := fun _ =>
  ⟨Memory.fbWf_cleared, ⟨rfl, rfl, rfl⟩, fun _ h => absurd h List.not_mem_nil, fun _ => rfl, fun _ => rfl⟩

/-- Settles O30, by computation. -/
theorem resetLeavesTheSpecsValues : Obligations.ResetLeavesTheSpecsValues := fun _ =>
  ⟨rfl, rfl, rfl, rfl, fun _ => rfl, rfl, rfl, rfl, rfl, rfl, rfl, rfl, rfl, rfl⟩

/-- The fields the control state of the invariant is about. -/
def State.control (s : State) : CState × Bool × Bool × List SeqItem := (s.cstate, s.txh, s.busy, s.seq)

theorem controlOk_congr {s t : State} (h : ControlOk s) (hsame : t.control = s.control) : ControlOk t := by
  simp only [State.control, Prod.mk.injEq] at hsame
  obtain ⟨hcstate, htxh, hbusy, hseq⟩ := hsame
  unfold ControlOk
  rw [hcstate, htxh, hbusy, hseq]
  exact h

/-- While a sequence runs the control state is one the rules give, whatever is left of it. -/
theorem controlOk_of_runs {s : State} (h : s.sequenceRuns = true) : ControlOk s := by
  obtain ⟨hbusy, htxh, hcstate⟩ := s.sequenceRuns_iff.mp h
  simp only [List.mem_cons, List.not_mem_nil, or_false] at hcstate
  rcases hcstate with hc | hc | hc <;> simp [ControlOk, hc, hbusy, htxh]

/-- Under the invariant a busy FBC in a state with sequences runs one. -/
theorem sequenceRuns_of_inv {s : State} (h : Inv s) (hbusy : s.busy = true)
    (hcstate : s.cstate ∈ [CState.initializing, .ready, .shuttingDown]) : s.sequenceRuns = true := by
  have hcontrol := h.control
  refine s.sequenceRuns_iff.mpr ⟨hbusy, ?_, hcstate⟩
  simp only [List.mem_cons, List.not_mem_nil, or_false] at hcstate
  rcases hcstate with hc | hc | hc <;> simp only [ControlOk, hc] at hcontrol <;> exact hcontrol.1

/-- What the invariant gives in Ready (R42, R46). -/
theorem control_of_ready {s : State} (h : Inv s) (hcstate : s.cstate = .ready) :
    s.txh = true ∧ (s.busy = false → s.seq = []) := by
  have hcontrol := h.control
  simp only [ControlOk, hcstate] at hcontrol
  exact hcontrol

/-- What the invariant gives in Closed (R276). -/
theorem control_of_closed {s : State} (h : Inv s) (hcstate : s.cstate = .closed) :
    s.txh = false ∧ s.busy = false ∧ s.seq = [] := by
  have hcontrol := h.control
  simp only [ControlOk, hcstate] at hcontrol
  exact hcontrol

/-- A change of FB to another framebuffer, and of what the invariant does not speak of. -/
theorem inv_withFb {s t : State} (h : Inv s) (hfb : t.fb.fbWf) (hcontrol : t.control = s.control)
    (hwaiting : t.waiting = s.waiting) (hlog : t.log = s.log) : Inv t := by
  have hctl := controlOk_congr h.control hcontrol
  simp only [State.control, Prod.mk.injEq] at hcontrol
  obtain ⟨-, -, hbusy, hseq⟩ := hcontrol
  exact ⟨hfb, hctl, by rw [hseq]; exact h.items, by rw [hwaiting, hbusy]; exact h.waits, by rw [hlog]; exact h.log⟩

/-- The start of a refresh in a state that will run it. -/
theorem inv_startRefresh {s : State} (hfb : s.fb.fbWf) (hruns : s.sequenceRuns = true) (hwaiting : s.waiting = false)
    (hlog : logSderr s.log = false → s.log = 0#17) : Inv s.startRefresh :=
  ⟨hfb, controlOk_of_runs (s := s.startRefresh) hruns, refreshSequence_ok _ _ _,
    fun h => absurd (hwaiting.symm.trans h) Bool.false_ne_true, hlog⟩

theorem idleStep_inv {s t : State} (hinv : Inv s) (hbusy : s.busy = false) (hwaiting : s.waiting = false)
    (h : IdleStep s t) : Inv t := by
  cases h with
  | idle => exact hinv
  | faulted q port k f => exact inv_withFb hinv hinv.fb (by simp [State.control, hbusy]) rfl rfl
  | ran q port k hlegal heffect =>
    cases heffect with
    | answers fb data hfb => exact inv_withFb hinv (hfb hinv.fb) (by simp [State.control, hbusy]) rfl rfl
    | updates hi =>
      have hready := ready_of_legalIn hlegal (.inl hi)
      have htxh := (control_of_ready hinv hready).1
      exact inv_startRefresh hinv.fb ((State.sequenceRuns_iff _).mpr ⟨rfl, htxh, by simp [hready]⟩) hwaiting hinv.log
    | shutsDown hi hopen =>
      have htxh := (control_of_ready hinv (ready_of_legalIn hlegal (.inr hopen))).1
      exact inv_startRefresh Memory.fbWf_cleared ((State.sequenceRuns_iff _).mpr ⟨rfl, htxh, by simp⟩) hwaiting hinv.log

/-- LOG as SHUTDOWN's handler writes it has SDERR set (R43, R274). -/
theorem logSderr_logOf (k : Nat) : logSderr (logOf k) = true := by
  unfold logSderr logOf
  rw [BitVec.getLsbD_append, if_pos (by decide)]
  rfl

theorem acquire_inv {s : State} (hinv : Inv s) (hwaiting : s.waiting = false) (hcstate : s.cstate = .uninitialized) :
    Inv (acquire s) := by
  have hcontrol := hinv.control
  simp only [ControlOk, hcstate] at hcontrol
  obtain ⟨htxh, hbusy, hseq⟩ := hcontrol
  rcases acquire_cases s with ⟨rest, h⟩ | ⟨rest, h⟩ | h <;> rw [h]
  · exact ⟨hinv.fb, ⟨rfl, hbusy⟩, initSequence_ok _ _, hinv.waits, hinv.log⟩
  · exact ⟨hinv.fb, ⟨rfl, hseq⟩, hinv.items, fun h => absurd (hwaiting.symm.trans h) Bool.false_ne_true, hinv.log⟩
  · exact ⟨hinv.fb, hinv.control, hinv.items, fun _ => hbusy, hinv.log⟩

theorem raiseTransportFailure_inv {s : State} (hinv : Inv s) (hwaiting : s.waiting = false) (hruns : s.sequenceRuns = true)
    (k : Nat) : Inv (s.raiseTransportFailure k) := by
  obtain ⟨hbusy, htxh, hcstate⟩ := s.sequenceRuns_iff.mp hruns
  have hnil : ∀ item ∈ ([] : List SeqItem), SeqItemOk item := fun _ h => absurd h List.not_mem_nil
  have hw : s.waiting = true → false = true := fun h => absurd (hwaiting.symm.trans h) Bool.false_ne_true
  rcases s.raiseTransportFailure_cases k with ⟨hc, h⟩ | ⟨hc, h⟩ | ⟨hc, h⟩ | ⟨hc, -⟩
  · rw [h]
    exact ⟨hinv.fb, ⟨rfl, rfl⟩, hnil, hw, hinv.log⟩
  · rw [h]
    exact ⟨hinv.fb, by simp [ControlOk, hc, htxh], hnil, hw, hinv.log⟩
  · rw [h]
    exact ⟨hinv.fb, by simp [ControlOk, hc, htxh, hbusy], hnil, hinv.waits, fun hlog => by simp [logSderr_logOf] at hlog⟩
  · exact absurd hcstate hc

theorem issue_inv {s : State} (hinv : Inv s) (hwaiting : s.waiting = false) (hruns : s.sequenceRuns = true)
    (ts : List Transaction) : Inv (s.issue ts) := by
  have hcases := State.issue_cases ts s
  generalize s.issue ts = t at hcases ⊢
  cases hcases with
  | success rest => exact inv_withFb hinv hinv.fb rfl rfl rfl
  | failure rest hts =>
    exact raiseTransportFailure_inv (s := s.afterFailure _ _ rest) (inv_withFb hinv hinv.fb rfl rfl rfl) hwaiting hruns _
  | unanswered hts => exact ⟨hinv.fb, hinv.control, hinv.items, fun _ => (s.sequenceRuns_iff.mp hruns).1, hinv.log⟩

theorem finish_inv {s : State} (hinv : Inv s) (hwaiting : s.waiting = false) (hseq : s.seq = [])
    (hcstate : s.cstate ∈ [CState.initializing, .ready, .shuttingDown]) (htxh : s.txh = true) : Inv s.finish := by
  have hw : s.waiting = true → false = true := fun h => absurd (hwaiting.symm.trans h) Bool.false_ne_true
  rcases s.finish_cases with ⟨hc, h⟩ | ⟨hc, h⟩ | ⟨hc, h⟩ | ⟨hc, -⟩
  · rw [h]
    exact ⟨hinv.fb, ⟨htxh, fun _ => hseq⟩, hinv.items, hw, hinv.log⟩
  · rw [h]
    exact ⟨hinv.fb, by simp [ControlOk, hc, htxh, hseq], hinv.items, hw, hinv.log⟩
  · rw [h]
    exact ⟨hinv.fb, ⟨rfl, rfl, hseq⟩, hinv.items, hw, hinv.log⟩
  · exact absurd hcstate hc

theorem busyStep_inv {s t : State} (hinv : Inv s) (hbusy : s.busy = true) (hwaiting : s.waiting = false)
    (h : BusyStep s t) : Inv t := by
  cases h with
  | acquired hcstate => exact acquire_inv hinv hwaiting hcstate
  | @issued item more hruns hseq =>
    have hmore : ∀ j ∈ more, SeqItemOk j := fun j hj => hinv.items j (hseq ▸ List.mem_cons_of_mem item hj)
    have hinv' : Inv { s with seq := more } :=
      ⟨hinv.fb, controlOk_of_runs (s := { s with seq := more }) hruns, hmore, hinv.waits, hinv.log⟩
    exact issue_inv hinv' hwaiting hruns _
  | ended hcstate hseq =>
    exact finish_inv hinv hwaiting hseq hcstate (s.sequenceRuns_iff.mp (sequenceRuns_of_inv hinv hbusy hcstate)).2.1

/-- Settles O45: idle steps by `idleStep_inv`, busy ones by `busyStep_inv`. -/
theorem everyStepKeepsTheInvariant : Obligations.EveryStepKeepsTheInvariant := by
  intro s t hinv h
  have hwaiting := (step_cases h).1
  cases hbusy : s.busy with
  | false => exact idleStep_inv hinv hbusy hwaiting (idleStep_of_step hbusy h)
  | true => exact busyStep_inv hinv hbusy hwaiting (busyStep_of_step hinv hbusy h)

/-! ## Closed is final (O43) -/

/-- One step of a Closed FBC. -/
theorem step_of_closed {s t : State} (hinv : Inv s) (hclosed : s.cstate = .closed) (h : step s = .next t) :
    t.cstate = .closed ∧ t.trace = s.trace ∧ t.fb = s.fb ∧ t.log = s.log := by
  obtain ⟨-, hbusy, -⟩ := control_of_closed hinv hclosed
  cases idleStep_of_step hbusy h with
  | idle | faulted => exact ⟨hclosed, rfl, rfl, rfl⟩
  | ran q port k hlegal heffect =>
    have hquery := (hlegal.resolve_left (by simp [hclosed])).2
    cases heffect with
    | answers fb data hfb hkeep => exact ⟨hclosed, rfl, hkeep hquery, rfl⟩
    | updates hi => simp [hi] at hquery
    | shutsDown hi hopen => exact absurd hclosed hopen.1

/-- Settles O43, by induction on the steps: each keeps the invariant and is one `step_of_closed` describes. -/
theorem closedIsFinal : Obligations.ClosedIsFinal := by
  intro n
  induction n with
  | zero =>
    intro s t hinv hclosed h
    obtain rfl := Host.Outcome.next.inj h
    exact ⟨hclosed, rfl, rfl, (control_of_closed hinv hclosed).1, rfl⟩
  | succ n ih =>
    intro s t hinv hclosed h
    obtain ⟨u, hstep, hrun⟩ := step_of_run h
    obtain ⟨hu, htrace, hfb, hlog⟩ := step_of_closed hinv hclosed hstep
    obtain ⟨ht, htrace', hfb', htxh, hlog'⟩ := ih u t (everyStepKeepsTheInvariant s u hinv hstep) hu hrun
    exact ⟨ht, htrace'.trans htrace, hfb'.trans hfb, htxh, hlog'.trans hlog⟩

end Sys2Proof.Machine
end

section
/-! PROOFS. What one step does to the controller state (R41), to LOG (R43, R274) and to the responses (R301, R305, R107), by the cases
of an idle and of a busy step. -/

namespace Sys2Proof.Machine

/-! ## The legal transitions (O46) -/

theorem issue_cstate (ts : List Transaction) (s : State) :
    (s.issue ts).cstate = s.cstate ∨ legalTransition s.cstate (s.issue ts).cstate = true := by
  have hcases := State.issue_cases ts s
  generalize s.issue ts = t at hcases ⊢
  cases hcases with
  | success | unanswered => exact .inl rfl
  | @failure us ws u rest hts =>
    rcases (s.afterFailure us u rest).raiseTransportFailure_cases (s.seqK + us.length) with
      ⟨hc, h⟩ | ⟨-, h⟩ | ⟨-, h⟩ | ⟨-, h⟩ <;> rw [h]
    · have hinit : s.cstate = .initializing := hc
      exact .inr (by rw [hinit]; rfl)
    · exact .inl rfl
    · exact .inl rfl
    · exact .inl rfl

theorem busyStep_cstate {s t : State} (h : BusyStep s t) :
    t.cstate = s.cstate ∨ legalTransition s.cstate t.cstate = true := by
  cases h with
  | acquired hcstate =>
    rcases acquire_cases s with ⟨rest, h⟩ | ⟨rest, h⟩ | h <;> rw [h, hcstate]
    · exact .inr rfl
    · exact .inr rfl
    · exact .inl rfl
  | issued => exact issue_cstate _ _
  | ended hcstate =>
    rcases s.finish_cases with ⟨hc, h⟩ | ⟨hc, h⟩ | ⟨hc, h⟩ | ⟨hc, -⟩
    · rw [h, hc]
      exact .inr rfl
    · rw [h]
      exact .inl rfl
    · rw [h, hc]
      exact .inr rfl
    · exact absurd hcstate hc

/-- Settles O46: an idle step moves CSTATE only by SHUTDOWN in Ready. -/
theorem controllerStateMovesOnlyLegally : Obligations.ControllerStateMovesOnlyLegally := by
  intro s t hinv h
  cases hbusy : s.busy with
  | true => exact busyStep_cstate (busyStep_of_step hinv hbusy h)
  | false =>
    cases idleStep_of_step hbusy h with
    | idle | faulted => exact .inl rfl
    | ran q port k hlegal heffect =>
      cases heffect with
      | answers | updates => exact .inl rfl
      | shutsDown hi hopen => exact .inr (by rw [ready_of_legalIn hlegal (.inr hopen)]; rfl)

/-! ## Who writes LOG (O52) -/

/-- Settles O52: only the handler of SHUTDOWN's failed refresh writes LOG. -/
theorem logIsWrittenOnlyByAFailedFinalRefresh : Obligations.LogIsWrittenOnlyByAFailedFinalRefresh := by
  intro s t hinv h hlog
  cases hbusy : s.busy with
  | false =>
    cases idleStep_of_step hbusy h with
    | idle | faulted => exact absurd rfl hlog
    | ran q port k hlegal heffect => cases heffect <;> exact absurd rfl hlog
  | true =>
    cases busyStep_of_step hinv hbusy h with
    | acquired =>
      rcases acquire_cases s with ⟨rest, h⟩ | ⟨rest, h⟩ | h <;> rw [h] at hlog <;> exact absurd rfl hlog
    | ended =>
      rcases s.finish_cases with ⟨-, h⟩ | ⟨-, h⟩ | ⟨-, h⟩ | ⟨-, h⟩ <;> rw [h] at hlog <;> exact absurd rfl hlog
    | @issued item more hruns hseq =>
      have hcases := State.issue_cases (itemTransactions item) { s with seq := more }
      generalize State.issue (itemTransactions item) { s with seq := more } = t at hcases hlog ⊢
      cases hcases with
      | success | unanswered => exact absurd rfl hlog
      | @failure us ws u rest hts =>
        rcases (State.afterFailure us u rest { s with seq := more }).raiseTransportFailure_cases (s.seqK + us.length) with
          ⟨-, h⟩ | ⟨-, h⟩ | ⟨hc, h⟩ | ⟨-, h⟩ <;> rw [h] at hlog ⊢
        · exact absurd rfl hlog
        · exact absurd rfl hlog
        · exact ⟨hc, s.seqK + us.length, rfl, rfl, us, u, rfl, rfl⟩
        · exact absurd rfl hlog

/-! ## One response an operation (O53) -/

/-- A busy step's responses: one, held by the response registers, when it ends the operation, and none before (R301, R107). -/
def RespondsAtEnd (s t : State) : Prop :=
  (t.busy = false → t.responses = s.responses ++ [⟨s.requester, t.respCode, t.respData⟩]) ∧
    (t.busy = true → t.responses = s.responses)

/-- The end of an operation gives the one response. -/
theorem respondsAtEnd_of_complete {s t u : State} {code : RespCode} {data : Word} (ht : t = u.complete code data)
    (hresponses : u.responses = s.responses) (hrequester : u.requester = s.requester) : RespondsAtEnd s t := by
  subst ht
  refine ⟨fun _ => ?_, fun h => by cases h⟩
  rw [State.complete_responses, hresponses, hrequester]
  rfl

/-- A step that goes on gives none. -/
theorem respondsAtEnd_of_busy {s t : State} (hbusy : t.busy = true) (hresponses : t.responses = s.responses) :
    RespondsAtEnd s t :=
  ⟨fun h => absurd (h.symm.trans hbusy) Bool.false_ne_true, fun _ => hresponses⟩

theorem busyStep_responds {s t : State} (hbusy : s.busy = true) (h : BusyStep s t) : RespondsAtEnd s t := by
  cases h with
  | acquired =>
    rcases acquire_cases s with ⟨rest, h⟩ | ⟨rest, h⟩ | h
    · exact respondsAtEnd_of_busy (by rw [h]; exact hbusy) (by rw [h])
    · exact respondsAtEnd_of_complete h rfl rfl
    · exact respondsAtEnd_of_busy (by rw [h]; exact hbusy) (by rw [h])
  | @issued item more hruns hseq =>
    have hcases := State.issue_cases (itemTransactions item) { s with seq := more }
    generalize State.issue (itemTransactions item) { s with seq := more } = t at hcases ⊢
    cases hcases with
    | success | unanswered => exact respondsAtEnd_of_busy hbusy rfl
    | @failure us ws u rest hts =>
      rcases (State.afterFailure us u rest { s with seq := more }).raiseTransportFailure_cases (s.seqK + us.length) with
        ⟨-, h⟩ | ⟨-, h⟩ | ⟨-, h⟩ | ⟨-, h⟩
      · exact respondsAtEnd_of_complete h rfl rfl
      · exact respondsAtEnd_of_complete h rfl rfl
      · exact respondsAtEnd_of_busy (by rw [h]; exact hbusy) (by rw [h]; rfl)
      · exact respondsAtEnd_of_busy (by rw [h]; exact hbusy) (by rw [h]; rfl)
  | ended hcstate =>
    rcases s.finish_cases with ⟨-, h⟩ | ⟨-, h⟩ | ⟨-, h⟩ | ⟨hc, -⟩
    · exact respondsAtEnd_of_complete h rfl rfl
    · exact respondsAtEnd_of_complete h rfl rfl
    · exact respondsAtEnd_of_complete h rfl rfl
    · exact absurd hcstate hc

/-- An idle FBC is in a state that accepts requests (R306). -/
theorem cstate_of_idle {s : State} (hinv : Inv s) (hbusy : s.busy = false) :
    s.cstate = .ready ∨ s.cstate = .closed ∨ s.cstate = .configFailed := by
  have hcontrol := hinv.control
  cases hc : s.cstate <;> simp [ControlOk, hc, hbusy] at hcontrol ⊢

/-- The responses and fault bits of a legal operation, right after acceptance: one response, or none yet where a sequence is to run. -/
theorem ruleEffect_responds {s t : State} {i : Instr} (hbusy : s.busy = true) (hlegal : legalIn i s.cstate)
    (h : RuleEffect i s t) :
    t.fault = s.fault ∧ (t.busy = true ↔ s.cstate = .ready ∧ i ∈ [.update, .shutdown]) ∧ RespondsAtEnd s t := by
  cases h with
  | answers fb data hfb hkeep hupdate hshutdown =>
    refine ⟨rfl, ⟨fun h => (by cases h), fun ⟨hready, hi⟩ => ?_⟩, respondsAtEnd_of_complete rfl rfl rfl⟩
    rcases List.mem_pair.mp hi with rfl | rfl
    · exact absurd rfl hupdate
    · exact absurd hready (hshutdown rfl)
  | updates hi =>
    exact ⟨rfl, ⟨fun _ => ⟨ready_of_legalIn hlegal (.inl hi), by simp [hi]⟩, fun _ => hbusy⟩, respondsAtEnd_of_busy hbusy rfl⟩
  | shutsDown hi hopen =>
    exact ⟨rfl, ⟨fun _ => ⟨ready_of_legalIn hlegal (.inr hopen), by simp [hi]⟩, fun _ => hbusy⟩, respondsAtEnd_of_busy hbusy rfl⟩

/-- Settles O53: a busy step by `busyStep_responds`; an accepted request by its decoding, and its operation by its legality. -/
theorem everyOperationGivesOneResponse : Obligations.EveryOperationGivesOneResponse := by
  intro s t hinv h
  have hwaiting := (step_cases h).1
  refine ⟨fun hbusy => busyStep_responds hbusy (busyStep_of_step hinv hbusy h), fun hbusy r s' haccept => ?_,
    fun hbusy haccept => ?_⟩
  · rw [step_of_accept hbusy hwaiting haccept] at h
    obtain ⟨q, port, k, -, rfl⟩ := accept_next haccept
    refine ⟨fun e he => ?_, fun i hi => ?_⟩
    · rw [he] at h
      obtain rfl := Host.Outcome.next.inj h
      exact ⟨rfl, rfl, rfl⟩
    · rw [hi] at h
      have hhost := isBus_of_decodeRequest hi
      refine ⟨fun hready hquery => ?_, fun hlegal => ?_⟩
      · rcases exec_host_next hhost h with ⟨-, rfl⟩ | ⟨hl, -⟩
        · exact ⟨rfl, rfl, rfl⟩
        · exact absurd hl fun hl => hl.elim hready fun hend => hquery hend.2
      · have hl : legalIn i s.cstate :=
          (cstate_of_idle hinv hbusy).imp id fun hend => ⟨hend, hlegal.resolve_left (by rcases hend with h | h <;> simp [h])⟩
        rcases exec_host_next hhost h with ⟨hnot, -⟩ | ⟨hl', heffect⟩
        · exact absurd hl hnot
        · obtain ⟨hfault, hbusy', hend, hgoes⟩ := ruleEffect_responds rfl hl' heffect
          exact ⟨hfault, hbusy', hgoes, hend⟩
  · obtain rfl := Host.Outcome.next.inj ((step_of_accept_none hbusy hwaiting haccept).symm.trans h)
    exact ⟨rfl, rfl⟩

end Sys2Proof.Machine
end
